-- ==== Sys2Proof/Word.lean ====
section
/-! DEFINITION. The word types of the part: a byte, a 12-bit station address, and the 16-bit words the manual
treats as bits (nonces, sequences, tags). -/

namespace Sys2Proof

/-- A byte of the air or of the host port (12_formats). -/
abbrev Byte := BitVec 8

/-- A station address, 12 bits (00_scope, "Station addresses"). -/
abbrev Addr := BitVec 12

/-- A nonce, a data sequence number or a host tag, 16 bits (R43, R122, R121). -/
abbrev Word16 := BitVec 16

end Sys2Proof
end

