-- ==== Sys2Proof/Syntax.lean ====
section
/-! DEFINITION. The commands the part takes: one constructor per row of spec/opcode_table.json. The rise-of-select
rows carry no operand, because their arguments are the bytes the port has shifted in (R159, R160; log 7). -/

namespace Sys2Proof

/-- One command or event. Slots are 0 to 23 (R25); the operands of the air rows are what the world supplies (log 11). -/
inductive Instr where
  /-- Power comes up (R169). -/
  | powerOn
  /-- RST_N has been low for 10 µs (R169). -/
  | resetLineAsserted
  /-- RST_N rises after a valid low (R169). -/
  | resetLineReleased
  /-- PSEL_N rises before the arguments are complete (R160). -/
  | transactionCutShort
  /-- PSEL_N rises on a transaction whose command byte is unrecognised (R159; log 8). -/
  | unknownCommand
  /-- The rise of PSEL_N that takes LOAD SETTINGS (R162). -/
  | loadSettings
  /-- The rise that takes READ SETTINGS (R162). -/
  | readSettings
  /-- The rise that takes START (R139, R161). -/
  | start
  /-- The rise that takes STOP (R161). -/
  | stop
  /-- The rise that takes RESET (R169). -/
  | reset
  /-- The rise that takes SEND (R163). -/
  | send
  /-- The rise that takes TAKE FRAME (R164). -/
  | takeFrame
  /-- The rise that takes TAKE REPORTS (R165). -/
  | takeReports
  /-- The rise that takes READ NEIGHBOURS (R166). -/
  | readNeighbours
  /-- The rise that takes READ STATION (R166). -/
  | readStation
  /-- The rise that takes RESEED (R73). -/
  | reseed
  /-- The rise that takes FORGET (R39). -/
  | forget
  /-- The rise that takes CHECK START (R150). -/
  | checkStart
  /-- The rise that takes CHECK STOP (R157). -/
  | checkStop
  /-- The rise that takes CHECK FREEZE (R156). -/
  | checkFreeze
  /-- The rise that takes CHECK READ (R156). -/
  | checkRead
  /-- The carrier crosses the carrier-sense level (R4); `carrier` is its value after. -/
  | mediumBusyChange (carrier : Bool)
  /-- The sync word is found in HUNT (R5). -/
  | syncWordFound
  /-- The carrier falls before the tenth header byte (R5). -/
  | headerAbandoned
  /-- The tenth header byte arrives (R6): the ten bytes, and the receiver's unclamped raw margin in qdB (R8). -/
  | headerReceived (header : List Byte) (raw : Int)
  /-- A kept frame reaches its stated length (R9): the body bytes as received, the payload check included. -/
  | frameEnd (body : List Byte)
  /-- The carrier falls in BODY before the stated length (R10). -/
  | frameTruncated
  /-- A DISCARD reaches the frame's stated end (R11). -/
  | discardEnd
  /-- 40 µs of idle medium complete in DEFER (R18). -/
  | guardGapComplete
  /-- A 20 µs backoff slot of idle medium ends (R18). -/
  | backoffSlotEnd
  /-- An own frame's transmission ends (R20). -/
  | transmissionEnd
  /-- 16 µs after the frame answered (R21). -/
  | shortGapExpiry
  /-- An own ACK ends (R21). -/
  | ackTransmissionEnd
  /-- The 200 µs ACK wait expires (R22). -/
  | ackWaitExpiry
  /-- The silence accumulator of an UP record reaches its limit (R33). -/
  | silenceLimitReached (slot : Nat)
  /-- A HEARD or LOST record reaches the forget time (R37). -/
  | aged (slot : Nat)
  /-- The initiation wait of a record expires (R46). -/
  | initiationWaitExpiry (slot : Nat)
  /-- The exchange timer of a record expires (R58). -/
  | exchangeTimeout (slot : Nat)
  /-- The holdoff of a HEARD record expires (R59). -/
  | offerHoldoffExpiry (slot : Nat)
  /-- A fade reaches T_brief (R84). -/
  | briefExpiry (slot : Nat)
  /-- A fade reaches the settle time (R85). -/
  | settleExpiry (slot : Nat)
  /-- The settle timeout of a trim expires (R99). -/
  | settleTimeout (slot : Nat)
  /-- T_hold runs out on a record (R100). -/
  | trimHoldoffExpiry (slot : Nat)
  /-- The age of the queued frame at `position` (0 the oldest) reaches T_wait (R129). -/
  | waitLimitExpiry (position : Nat)
  /-- The return path entry of `dest` reaches the route age (R133). -/
  | routeAgeExpiry (dest : Addr)
  /-- The acquisition timer expires (R139). -/
  | acquisitionExpiry
  /-- The step-down timer expires (R141). -/
  | stepDownExpiry
  /-- A due time arrives (R142). -/
  | beaconDue
  /-- A DOZE listen period reaches its end (R144). -/
  | listenPeriodEnd
  /-- A dozing peer's listen window ends (R146). -/
  | peerWindowEnd (slot : Nat)
  /-- The check pace has run since the last probe end (R151). -/
  | checkPaceExpiry
  /-- The 50 ms reflect timeout expires (R154). -/
  | reflectTimeout
  /-- PSEL_N falls (R159). -/
  | transactionBegun
  /-- A byte completes on the port (R159, R160): `data` is the byte on PDI. -/
  | portByteShifted (data : Byte)
  deriving DecidableEq, Repr

end Sys2Proof
end

