-- ==== Sys2Proof/Decode.lean ====
section
/-! DEFINITION. The words of the table. -/

namespace Sys2Proof

/-- The command a word spells by the bits of spec/opcode_table.json. The table gives none of its 54 rows any bits
("fields": []), so no word spells a command. (The host port's command bytes of 12_formats are read by
PORT_BYTE_SHIFTED, not here.) -/
def decodeTableWord (_nbits _w : Nat) : Option Instr := none

end Sys2Proof
end

