-- ==== Sys2Proof/Config.lean ====
section
/-! DEFINITION. What an implementation fixes and the model leaves free. -/

namespace Sys2Proof

/-- The part's random source, read as one stream: the n-th draw of a run. A FREE VALUE: it has no body, so no proof
can lean on what is drawn. Each user keeps only the range the manual gives (R18 backoff count, R43 nonces, R55 tie
holdoff, R150 check base). Log entry 5. -/
opaque Config.draw : Nat → Nat

end Sys2Proof
end

