-- ==== Sys2Proof/Machine/State.lean ====
section
/-! DEFINITION. The state of the part as plain data: every piece of state spec/ names, block by block, the queue of
commands waiting, and the state after reset. Times are readings of the running clock in µs unless a field says ms
(log 21). -/

namespace Sys2Proof.Machine

/-! ## Names of states, modes, outcomes and causes (00_scope, 12_formats) -/

/-- R161. -/
inductive StationState where
  | unconfigured | ready | acquiring | onAir
  deriving DecidableEq, Repr

/-- Section 2.4 of 02_neighbour_records. An empty slot is the absence of a record. -/
inductive LinkState where
  | heard | offering | up | lost
  deriving DecidableEq, Repr

/-- R138. -/
inductive DutyMode where
  | active | quiet | doze
  deriving DecidableEq, Repr

/-- R76. -/
inductive FadeState where
  | clear | entering | faded | leaving
  deriving DecidableEq, Repr

/-- R91. -/
inductive TrimState where
  | idle | settling | holdoff
  deriving DecidableEq, Repr

/-- R98, R99. -/
inductive TrimOutcome where
  | set | weak | strong | drift | silent
  deriving DecidableEq, Repr

/-- R43. -/
inductive Role where
  | proposer | answerer
  deriving DecidableEq, Repr

/-- R43. -/
inductive Phase where
  | sendingPages | awaitingPages
  deriving DecidableEq, Repr

/-- The six kinds of frame (R2, 12_formats). -/
inductive FrameKind where
  | beacon | data | ack | offer | probe | reflect
  deriving DecidableEq, Repr

/-- R41. -/
inductive LinkEvent where
  | admitted | heard | up | lost | removed
  deriving DecidableEq, Repr

/-- R41. -/
inductive LinkCause where
  | none | refused | timeout | tie | silent | noAck | notEchoed | forgotten | aged | evicted
  deriving DecidableEq, Repr

/-- R82, R84, R85. -/
inductive FadeClass where
  | blip | pass | shadowBegun | shadowEnded | reseeded
  deriving DecidableEq, Repr

/-- The cause in a FADE report (R88). -/
inductive FadeCause where
  | none | settle | host
  deriving DecidableEq, Repr

/-- R135. -/
inductive DropCause where
  | noAck | fullAtPeer | noPath | tooLong | stopped
  deriving DecidableEq, Repr

/-- R157; NONE until a check has ended (R149). -/
inductive CheckCause where
  | none | countDone | stopped | saturated | linkLost | stationStopped
  deriving DecidableEq, Repr

/-- R169. -/
inductive ResetCause where
  | power | pin | command
  deriving DecidableEq, Repr

/-- R150, R152. -/
inductive Pattern where
  | prbs | fixed | incrementing
  deriving DecidableEq, Repr

/-- R155. -/
inductive CounterMode where
  | saturate | wrap
  deriving DecidableEq, Repr

/-- The status of a command (12_formats, R160). -/
inductive Status where
  | ok | clamped | empty | full | busy | wrongState | noSuch | badArgument | unknownCommand
  deriving DecidableEq, Repr

/-- The outcome of an attempt that awaits an ACK (R22, R23). -/
inductive AttemptOutcome where
  | accepted | full | noAck
  deriving DecidableEq, Repr

/-! ## Settings (11_host_port_settings_and_reports, section 11.3) -/

/-- The 41 fields of the settings table, in its order. Units are the table's. -/
structure Settings where
  address       : Addr
  gateway       : Bool
  channel       : Nat
  bSlow         : Nat
  sLo           : Nat
  sHi           : Nat
  bBase         : Nat
  tIn           : Nat
  hyst          : Nat
  eIn           : Nat
  eOut          : Nat
  tMin          : Nat
  tBrief        : Nat
  dDeep         : Nat
  tSettle       : Nat
  mTgt          : Nat
  hTrim         : Nat
  kSettle       : Nat
  settleTimeout : Nat
  tHold         : Nat
  pInit         : Nat
  rateCap       : Nat
  guard         : Nat
  pFade         : Nat
  pShadow       : Nat
  sSw           : Nat
  cLimit        : Nat
  tQuiet        : Nat
  tDoze         : Nat
  wListen       : Nat
  nSurvey       : Nat
  kSilence      : Nat
  floor         : Nat
  forget        : Nat
  routeAge      : Nat
  hopLimit      : Nat
  rMax          : Nat
  tWait         : Nat
  maxPayload    : Nat
  reflect       : Bool
  checkPace     : Nat
  deriving DecidableEq, Repr

/-! ## Neighbour records (R27) -/

/-- The advertisement part: what the peer's latest good beacon carried (R27, R31). -/
structure Advert where
  cost    : Nat
  nextHop : Addr
  mode    : DutyMode
  window  : Nat
  gateway : Bool
  room    : Bool
  deriving DecidableEq, Repr

/-- The fade part (R76). `start`, `brief` and `settle` are ms of the running clock; `brief` and `settle` are the two
expiries of R83, absent once taken or discarded. -/
structure Fade where
  state  : FadeState
  count  : Nat
  start  : Option Nat
  maxDef : Nat
  shadow : Bool
  brief  : Option Nat
  settle : Option Nat
  deriving DecidableEq, Repr

/-- The trim part (R91). -/
structure Trim where
  echo    : Option Nat
  step    : Nat
  state   : TrimState
  count   : Nat
  timer   : Option Nat
  clamped : Bool
  last    : Option TrimOutcome
  rUsed   : Nat
  deriving DecidableEq, Repr

/-- The negotiated terms (R45, R60). -/
structure Terms where
  rateCeiling  : Nat
  maxPayload   : Nat
  pace         : Nat
  peerReflects : Bool
  deriving DecidableEq, Repr

/-- What the peer's OPEN gave: its nonce, rate cap and reflect flag (R43, R45). -/
structure PeerOpen where
  nonce   : Word16
  rateCap : Nat
  reflect : Bool
  deriving DecidableEq, Repr

/-- A pending OFFER page: its identity (log 6), ready time (R16), number, contents, fixed when first made ready
(R44), and attempt count (R48). -/
structure Page where
  id       : Nat
  ready    : Nat
  number   : Nat
  bytes    : List Byte
  attempts : Nat
  deriving DecidableEq, Repr

/-- The exchange part of a record in OFFERING (R43). -/
structure Exchange where
  role       : Role
  phase      : Phase
  refusing   : Bool
  ownNonce   : Word16
  peer       : Option PeerOpen
  nextPage   : Nat
  ownCount   : Nat
  expected   : Nat
  lastPage   : Option Nat
  maxPayload : Option Nat
  pace       : Option Nat
  timer      : Nat
  page       : Option Page
  deriving DecidableEq, Repr

/-- A neighbour record (R27). `lastHeard` is in ms; `silence` is the accumulator, kept in µs (log 21). -/
structure Record where
  peer       : Addr
  link       : LinkState
  lastHeard  : Nat
  silence    : Nat
  advert     : Advert
  windowEnd  : Option Nat
  F          : Int
  L          : Int
  fade       : Fade
  trim       : Trim
  notEchoed  : Nat
  terms      : Option Terms
  linkCost   : Nat
  pathCost   : Nat
  eligible   : Bool
  exch       : Option Exchange
  holdoff    : Option Nat
  initWait   : Option Nat
  failStreak : Nat
  hopDrops   : Nat
  loopDrops  : Nat
  pathDrops  : Nat
  deriving DecidableEq, Repr

/-! ## The air blocks (01_the_air_channel) -/

/-- R3. -/
inductive RxState where
  | off | hunt | header | body | discard
  deriving DecidableEq, Repr

/-- The fields of an accepted frame header (12_formats). `full` is an ACK's status FULL. `step` is the power step as
carried, 0 to 255. -/
structure Header where
  kind : FrameKind
  full : Bool
  dest : Addr
  src  : Addr
  step : Nat
  cls  : Nat
  len  : Nat
  echo : Nat
  deriving DecidableEq, Repr

/-- The frame under reception in BODY or DISCARD: its header, the raw margin clamped to 0..255 (R8), its stated end,
whether its body is being stored or is followed header-only (R9), and whether it bears this station's own address as
sender (R6). -/
structure RxFrame where
  header : Header
  raw    : Nat
  ends   : Nat
  store  : Bool
  own    : Bool
  deriving DecidableEq, Repr

/-- The Air Receiver: R3, R13. `heldAtSync` notes whether it held its buffer when it last found a sync word: a buffer
taken during a frame is first used by the next frame (R13). -/
structure Receiver where
  state      : RxState
  frame      : Option RxFrame
  holds      : Bool
  heldAtSync : Bool
  request    : Bool
  deriving DecidableEq, Repr

/-- Section 1.3. -/
inductive TxState where
  | idle | defer | backoff | sending | awaitAck
  deriving DecidableEq, Repr

/-- The frame in flight (R14): the due beacon, the pending page of a slot, the probe, the REFLECT (each by its
identity, log 6), or a forward-queue entry with the neighbour it resolved to (R17). -/
inductive Chosen where
  | beacon
  | page (slot : Nat) (id : Nat)
  | probe (id : Nat)
  | reflect (id : Nat)
  | data (id : Nat) (peer : Addr)
  deriving DecidableEq, Repr

/-- A frame as it goes on air: the ten header bytes, then the body with its payload check (12_formats). -/
structure AirFrame where
  header : List Byte
  body   : List Byte
  deriving DecidableEq, Repr

/-- An ACK that is owed (R21). -/
structure AckOwed where
  dest : Addr
  full : Bool
  due  : Nat
  deriving DecidableEq, Repr

/-- The reflect buffer when it is not free (R153): the copied body, the prober, the ready time of the REFLECT. -/
structure ReflectBuffer where
  id     : Nat
  prober : Addr
  body   : List Byte
  ready  : Nat
  deriving DecidableEq, Repr

/-- The Air Sender (section 1.3). `guard`, `slotEnd`, `ends`, `ackWait` are deadlines. `attempt` is the attempt count
of the frame in flight (R19). `ackAir` is the own ACK on air with its end. -/
structure Sender where
  state     : TxState
  chosen    : Option Chosen
  addressee : Option Addr
  attempt   : Nat
  count     : Option Nat
  cw        : Nat
  guard     : Option Nat
  slotEnd   : Option Nat
  ends      : Option Nat
  ackWait   : Option Nat
  air       : Option AirFrame
  ackOwed   : Option AckOwed
  ackAir    : Option (AirFrame × Nat)
  beaconDue : Bool
  reflect   : Option ReflectBuffer
  deriving DecidableEq, Repr

/-! ## Path Selector and Relay Unit -/

/-- The record the next hop names: its slot and peer address (R106). -/
structure NextHop where
  slot : Nat
  addr : Addr
  deriving DecidableEq, Repr

/-- A forward-queue entry (R123). `entered` is the ms of the running clock (log 21). `waitDue` holds until the test at
the moment its age reaches T_wait has been made (R129). -/
structure Entry where
  id       : Nat
  origin   : Addr
  dest     : Addr
  seq      : Word16
  hop      : Nat
  tag      : Option Word16
  attempts : Nat
  entered  : Nat
  source   : Option Nat
  payload  : List Byte
  waitDue  : Bool
  deriving DecidableEq, Repr

/-- A delivery-ring entry (R134). -/
structure Delivery where
  origin  : Addr
  seq     : Word16
  payload : List Byte
  deriving DecidableEq, Repr

/-- A return path entry (R132). `refresh` is the ms of the running clock (log 21). -/
structure ReturnPath where
  dest    : Addr
  via     : Nat
  refresh : Nat
  deriving DecidableEq, Repr

/-! ## Duty Controller (R138) -/

/-- The listen period of DOZE (R138). The entry hold has no end of its own (R143). -/
inductive ListenPeriod where
  | none
  | entryHold
  | window (ends : Nat)
  | survey (ends : Nat)
  deriving DecidableEq, Repr

/-- R138. `interval` is in ms. -/
structure Duty where
  mode        : DutyMode
  stepDown    : Option Nat
  nextDue     : Option Nat
  interval    : Nat
  listen      : ListenPeriod
  survey      : Nat
  acquisition : Option Nat
  deriving DecidableEq, Repr

/-! ## Link Checker (R149) -/

/-- The live counters (R149). -/
structure Counters where
  sent     : Nat
  returned : Nat
  errored  : Nat
  bits     : Nat
  overflow : Nat
  deriving DecidableEq, Repr

/-- The checker state with its probe phase (R149): PACING until a moment, PENDING with the probe's number, identity
and ready time, OUTSTANDING with the probe's number and its reflect timeout. -/
inductive CheckState where
  | idle
  | pacing (until_ : Nat)
  | pending (number : Nat) (id : Nat) (ready : Nat)
  | outstanding (number : Nat) (timeout : Nat)
  deriving DecidableEq, Repr

/-- The check record (R149). `countCode` is 0 to 5; `lastEnd` is in µs. -/
structure CheckRecord where
  slot      : Nat
  peer      : Addr
  countCode : Nat
  length    : Nat
  pattern   : Pattern
  fixed     : Byte
  mode      : CounterMode
  base      : Nat
  next      : Nat
  settled   : Nat
  lastEnd   : Option Nat
  deriving DecidableEq, Repr

/-- The snapshot (R149). `slot` is the byte the host reads (log 20). -/
structure Snapshot where
  slot     : Nat
  peer     : Addr
  base     : Nat
  mode     : CounterMode
  settled  : Nat
  running  : Bool
  counters : Counters
  deriving DecidableEq, Repr

/-- R149. -/
structure Checker where
  state    : CheckState
  record   : Option CheckRecord
  live     : Counters
  snapshot : Snapshot
  endCause : CheckCause
  deriving DecidableEq, Repr

/-! ## Host Port (11) -/

/-- The contents of a report beyond its key (R41, R88, R103, R116, R135, R148, R157, R169). -/
inductive ReportBody where
  | started (cause : ResetCause)
  | neighbour (event : LinkEvent) (cause : LinkCause) (after : Option LinkState)
  | fade (cls : FadeClass) (cause : FadeCause) (duration depth : Nat) (F L : Int)
  | trim (outcome : TrimOutcome) (step : Nat) (clamped : Bool) (echo : Nat) (X : Int) (count rUsed : Nat)
  | route (nextHop : Addr) (cost : Nat) (prevHop : Addr) (prevCost : Nat)
  | drop (count : Nat) (lastTag : Word16) (lastCause : DropCause) (lastSeq : Word16)
  | check (cause : CheckCause) (countCode settled : Nat) (counters : Counters)
  | duty (mode previous : DutyMode) (woken : Bool)
  deriving DecidableEq, Repr

/-- The kind of a report, half of its key (R167). -/
inductive ReportKind where
  | started | neighbour | fade | trim | route | drop | check | duty
  deriving DecidableEq, Repr

/-- A report in the queue (R167). `stamp` changes whenever its contents are written (log 6). -/
structure Report where
  addr  : Addr
  slot  : Option Nat
  body  : ReportBody
  stamp : Nat
  deriving DecidableEq, Repr

/-- R159. -/
inductive PortPhase where
  | command | arguments | result | spent
  deriving DecidableEq, Repr

/-- What the port remembers of a report whose shifting has begun (R165): the stamp of the contents it copied, and the
count it read when it is a DROP report. -/
structure Snap where
  stamp : Nat
  count : Nat
  deriving DecidableEq, Repr

/-- The transaction in progress (R159, R160). -/
structure Transaction where
  phase      : PortPhase
  code       : Byte
  args       : List Byte
  due        : Nat
  status     : Option Status
  statusOut  : Bool
  out        : List Byte
  total      : Nat
  begun      : Nat
  snaps      : List Snap
  marker     : Bool
  discardsAt : Nat
  sendHeld   : Bool
  seqOut     : Word16
  deriving DecidableEq, Repr

/-! ## The state -/

/-- The state of the part. `pending` is the queue of commands, first in first out. `draws`, `serial`, `discards` and
`workAvailable` are the model's own (log 5, log 6). -/
structure State where
  pending       : List Instr
  now           : Nat
  draws         : Nat
  serial        : Nat
  workAvailable : Bool
  inReset       : Bool
  attnLow       : Bool
  pdo           : Option Byte
  carrier       : Bool
  station       : StationState
  settings      : Option Settings
  port          : Option Transaction
  latest        : Option (Byte × Status)
  reports       : List Report
  overrun       : Bool
  discards      : Nat
  rx            : Receiver
  tx            : Sender
  slots         : List (Option Record)
  nextHop       : Option NextHop
  advCost       : Nat
  free          : Nat
  fwd           : List Entry
  ring          : List Delivery
  seen          : List (Addr × Word16)
  paths         : List ReturnPath
  seqCounter    : Word16
  duty          : Duty
  check         : Checker
  deriving DecidableEq, Repr

/-- Why the part would stop with a fault. The manual gives the part no way to stop, so there is no constructor: no
command raises a fault. Safe. -/
inductive Fault where
  deriving DecidableEq, Repr

/-- Why a command would be refused. -/
inductive Refusal where
  /-- Raised only by an arm of `exec` whose command has no meaning yet; no arm of this model uses it. Safe. -/
  | notModelled (mnemonic : String)
  deriving DecidableEq, Repr

/-! ## Reset -/

/-- The air sender after any reset and after STOP (R23, R24). -/
def Sender.stopped : Sender :=
  { state := .idle, chosen := none, addressee := none, attempt := 0, count := none, cw := 16, guard := none,
    slotEnd := none, ends := none, ackWait := none, air := none, ackOwed := none, ackAir := none,
    beaconDue := false, reflect := none }

/-- The air receiver after any reset and after STOP (R3, R13, R24). -/
def Receiver.stopped : Receiver :=
  { state := .off, frame := none, holds := false, heldAtSync := false, request := false }

/-- The duty controller after any reset (R138); the interval in progress is a DESIGN CHOICE (log 1). -/
def Duty.afterReset : Duty :=
  { mode := .active, stepDown := none, nextDue := none, interval := 100, listen := .none, survey := 0,
    acquisition := none }

/-- The five live counters at 0 (R149). -/
def Counters.zero : Counters := { sent := 0, returned := 0, errored := 0, bits := 0, overflow := 0 }

/-- The link checker after any reset (R149). -/
def Checker.afterReset : Checker :=
  { state := .idle, record := none, live := Counters.zero,
    snapshot := { slot := 0, peer := 0, base := 0, mode := .saturate, settled := 0, running := false,
                  counters := Counters.zero },
    endCause := .none }

/-- The 24 empty slots (R25). -/
def emptySlots : List (Option Record) := List.replicate 24 none

/-- The part at the completion of a reset with the given cause (R169): every block at the value its chapter gives.
The queue, the random stream, the identities and the carrier line are not the part's to reset (log 1, 5, 6). -/
def State.afterReset (cause : ResetCause) (pending : List Instr) (draws serial : Nat) (carrier : Bool) : State :=
  { pending := pending, now := 0, draws := draws, serial := serial + 1, workAvailable := false, inReset := false,
    attnLow := true, pdo := none, carrier := carrier, station := .unconfigured, settings := none, port := none,
    latest := none, reports := [{ addr := 0, slot := none, body := .started cause, stamp := serial }],
    overrun := false, discards := 0, rx := Receiver.stopped, tx := Sender.stopped, slots := emptySlots,
    nextHop := none, advCost := 4095, free := 48, fwd := [], ring := [], seen := [], paths := [], seqCounter := 0,
    duty := Duty.afterReset, check := Checker.afterReset }

/-- The part right after power-on (R169; log 1). -/
def State.reset : State := State.afterReset .power [] 0 0 false

end Sys2Proof.Machine
end

