-- ==== Sys2Proof/WellFormed.lean ====
section
/-! DEFINITION. The operands the spec admits for each command: slots 0 to 23 (R25), a ten-byte header (12_formats),
a body of at most 1,100 bytes (R6), a queue position below 40 (R123), a station address 0x001 to 0xFFD (00_scope). -/

namespace Sys2Proof

/-- A slot number of the Neighbour Table (R25). -/
def slotOk (slot : Nat) : Bool := decide (slot < 24)

/-- A station address, 0x001 to 0xFFD (00_scope, "Station addresses"). -/
def stationAddress (a : Addr) : Bool := decide (1 ≤ a.toNat ∧ a.toNat ≤ 0xFFD)

/-- The operands of a command are of the form the spec gives them. -/
def Instr.wellFormed : Instr → Bool
  | .headerReceived header _ => decide (header.length = 10)
  | .frameEnd body => decide (body.length ≤ 1100)
  | .silenceLimitReached slot => slotOk slot
  | .aged slot => slotOk slot
  | .initiationWaitExpiry slot => slotOk slot
  | .exchangeTimeout slot => slotOk slot
  | .offerHoldoffExpiry slot => slotOk slot
  | .briefExpiry slot => slotOk slot
  | .settleExpiry slot => slotOk slot
  | .settleTimeout slot => slotOk slot
  | .trimHoldoffExpiry slot => slotOk slot
  | .peerWindowEnd slot => slotOk slot
  | .waitLimitExpiry position => decide (position < 40)
  | .routeAgeExpiry dest => stationAddress dest
  | .powerOn => true
  | .resetLineAsserted => true
  | .resetLineReleased => true
  | .transactionCutShort => true
  | .unknownCommand => true
  | .loadSettings => true
  | .readSettings => true
  | .start => true
  | .stop => true
  | .reset => true
  | .send => true
  | .takeFrame => true
  | .takeReports => true
  | .readNeighbours => true
  | .readStation => true
  | .reseed => true
  | .forget => true
  | .checkStart => true
  | .checkStop => true
  | .checkFreeze => true
  | .checkRead => true
  | .mediumBusyChange _ => true
  | .syncWordFound => true
  | .headerAbandoned => true
  | .frameTruncated => true
  | .discardEnd => true
  | .guardGapComplete => true
  | .backoffSlotEnd => true
  | .transmissionEnd => true
  | .shortGapExpiry => true
  | .ackTransmissionEnd => true
  | .ackWaitExpiry => true
  | .acquisitionExpiry => true
  | .stepDownExpiry => true
  | .beaconDue => true
  | .listenPeriodEnd => true
  | .checkPaceExpiry => true
  | .reflectTimeout => true
  | .transactionBegun => true
  | .portByteShifted _ => true

end Sys2Proof
end

