-- ==== Sys2Proof/Machine/Operands.lean ====
section
/-! DEFINITION. The layouts of 12_formats: bytes of frames, reports, rows and settings, the two checks (R170), the
timing figures of R1, the patterns of R152, and the settings record's ranges (R162). Pure functions, no state. -/

namespace Sys2Proof.Machine

/-! ## Bytes and byte order -/

/-- The low 8 bits of a number. -/
def byteOf (n : Nat) : Byte := BitVec.ofNat 8 n

/-- Two bytes, most significant first (on air). -/
def be16 (n : Nat) : List Byte := [byteOf (n / 256), byteOf n]

/-- Four bytes, most significant first (on air). -/
def be32 (n : Nat) : List Byte := be16 (n / 65536) ++ be16 n

/-- Two bytes, least significant first (host port). -/
def le16 (n : Nat) : List Byte := [byteOf n, byteOf (n / 256)]

/-- Four bytes, least significant first (host port). -/
def le32 (n : Nat) : List Byte := le16 n ++ le16 (n / 65536)

/-- The number carried by bytes, most significant first. -/
def natBE (bs : List Byte) : Nat := bs.foldl (fun n b => n * 256 + b.toNat) 0

/-- The number carried by bytes, least significant first. -/
def natLE : List Byte → Nat
  | [] => 0
  | b :: bs => b.toNat + 256 * natLE bs

/-- Byte `i` as a number; 0 past the end. -/
def byteAt (bs : List Byte) (i : Nat) : Nat := (bs.getD i 0).toNat

/-- A flag on air or on the port: 1 for yes, 0 for no. -/
def flagByte (b : Bool) : Byte := if b then 1 else 0

/-- A byte read as a flag: other than 0 is yes (R170). -/
def isYes (n : Nat) : Bool := decide (n ≠ 0)

/-! ## The checks (R170) -/

/-- One bit into the register of x^16 + x^12 + x^5 + 1. -/
def crcBit (r : Word16) (b : Bool) : Word16 :=
  let shifted := r <<< (1 : Nat)
  if r.getLsbD 15 != b then shifted ^^^ 0x1021#16 else shifted

/-- One byte, most significant bit first. -/
def crcByte (r : Word16) (b : Byte) : Word16 :=
  [7, 6, 5, 4, 3, 2, 1, 0].foldl (fun r i => crcBit r (b.getLsbD i)) r

/-- The remainder over the covered bytes, preset to 0xFFFF, no final inversion (R170). -/
def crc16 (bs : List Byte) : Word16 := bs.foldl crcByte 0xFFFF#16

/-- Bytes followed by their check, high byte first (R170). -/
def withCheck (bs : List Byte) : List Byte := bs ++ be16 (crc16 bs).toNat

/-- Bytes whose last two are the check over the ones before (R170). -/
def checkPasses (bs : List Byte) : Bool :=
  decide (2 ≤ bs.length) && decide (bs.drop (bs.length - 2) = be16 (crc16 (bs.take (bs.length - 2))).toNat)

/-- A body without its 2-byte payload check. -/
def bodyBytes (body : List Byte) : List Byte := body.take (body.length - 2)

/-! ## Airtime (R1) -/

/-- The rate of a class in Mbit/s (R1). -/
def classRate (cls : Nat) : Nat := [5, 8, 12, 16, 22, 30, 40, 48].getD cls 5

/-- The time of a body of n bytes at a class: 8 n over the rate, rounded up (R1). -/
def bodyTime (cls n : Nat) : Nat := (8 * n + classRate cls - 1) / classRate cls

/-- The airtime of a frame: 44 µs of header part plus its body (R1). -/
def airtime (cls n : Nat) : Nat := 44 + bodyTime cls n

/-- Short gap, guard gap, backoff slot and ACK wait (R18, R21, R22; section 1.5). -/
def shortGap : Nat := 16
/-- The guard gap of R18. -/
def guardGap : Nat := 40
/-- The backoff slot of R18. -/
def backoffSlot : Nat := 20
/-- The ACK wait of R20. -/
def ackWaitTime : Nat := 200

/-- Milliseconds in µs. -/
def ms (n : Nat) : Nat := 1000 * n
/-- Seconds in µs. -/
def secs (n : Nat) : Nat := 1000000 * n

/-! ## Addresses -/

/-- Any gateway, 0xFFE (00_scope). -/
def anyGateway : Addr := 0xFFE#12
/-- Broadcast, 0xFFF (00_scope). -/
def broadcast : Addr := 0xFFF#12
/-- A number as an address. -/
def addrOf (n : Nat) : Addr := BitVec.ofNat 12 n

/-! ## Headers -/

/-- The code of a kind (12_formats). -/
def FrameKind.code : FrameKind → Nat
  | .beacon => 1 | .data => 2 | .ack => 3 | .offer => 4 | .probe => 5 | .reflect => 6

/-- The kind of a code; none of the six: absent (R6). -/
def FrameKind.ofCode : Nat → Option FrameKind
  | 1 => some .beacon | 2 => some .data | 3 => some .ack | 4 => some .offer | 5 => some .probe
  | 6 => some .reflect | _ => none

/-- The three bytes of two packed 12-bit addresses (header bytes 1 to 3, DATA body bytes 0 to 2). -/
def packAddrs (a b : Addr) : List Byte :=
  [byteOf (a.toNat / 16), byteOf (a.toNat % 16 * 16 + b.toNat / 256), byteOf b.toNat]

/-- The first of two packed addresses in bytes `i` to `i + 2`. -/
def packedFirst (bs : List Byte) (i : Nat) : Addr := addrOf (byteAt bs i * 16 + byteAt bs (i + 1) / 16)

/-- The second of two packed addresses. -/
def packedSecond (bs : List Byte) (i : Nat) : Addr := addrOf (byteAt bs (i + 1) % 16 * 256 + byteAt bs (i + 2))

/-- The ten bytes of a header (12_formats), its check included. -/
def Header.encode (h : Header) : List Byte :=
  withCheck ([byteOf (h.kind.code * 16 + (if h.full then 1 else 0))] ++ packAddrs h.dest h.src ++
    [byteOf h.step] ++ be16 (h.cls * 8192 + h.len) ++ [byteOf h.echo])

/-- The header the ten bytes carry, or none where R6 rejects it: a failing check, an unknown kind, a length above
1,100, an ACK with a body or another kind without one, a sender that is no station. -/
def Header.parse (bs : List Byte) : Option Header :=
  match FrameKind.ofCode (byteAt bs 0 / 16) with
  | none => none
  | some kind =>
    let h : Header :=
      { kind := kind, full := decide (kind = .ack) && isYes (byteAt bs 0 % 16), dest := packedFirst bs 1,
        src := packedSecond bs 1, step := byteAt bs 4, cls := natBE ((bs.drop 5).take 2) / 8192,
        len := natBE ((bs.drop 5).take 2) % 2048, echo := byteAt bs 7 }
    if decide (bs.length = 10) && checkPasses bs && decide (h.len ≤ 1100) &&
        (decide (kind = .ack) == decide (h.len = 0)) && stationAddress h.src
    then some h else none

/-- The raw margin clamped to 0..255 (R8). -/
def clampRaw (raw : Int) : Nat := (max 0 (min 255 raw)).toNat

/-! ## Bodies -/

/-- The code of a duty mode. -/
def DutyMode.code : DutyMode → Nat
  | .active => 0 | .quiet => 1 | .doze => 2

/-- The duty mode of a code. -/
def DutyMode.ofCode : Nat → Option DutyMode
  | 0 => some .active | 1 => some .quiet | 2 => some .doze | _ => none

/-- The beacon interval of a mode in ms (09, head table). -/
def DutyMode.interval : DutyMode → Nat
  | .active => 100 | .quiet => 400 | .doze => 1600

/-- One entry of the echo list (12_formats). -/
structure EchoEntry where
  peer   : Addr
  margin : Nat
  deriving DecidableEq, Repr

/-- The body of a beacon without its check (R15, 12_formats). -/
def beaconBody (a : Advert) (echoes : List EchoEntry) : List Byte :=
  be16 a.cost ++ be16 a.nextHop.toNat ++ [byteOf a.mode.code] ++ be16 a.window ++
    [flagByte a.gateway, flagByte a.room, byteOf echoes.length] ++
    (echoes.map fun e => be16 e.peer.toNat ++ [byteOf e.margin, 0]).flatten

/-- The entries of an echo list of `n` entries. -/
def parseEchoes : Nat → List Byte → List EchoEntry
  | 0, _ => []
  | n + 1, bs => { peer := addrOf (natBE (bs.take 2)), margin := byteAt bs 2 } :: parseEchoes n (bs.drop 4)

/-- The advertisement and echo list of a beacon body (its check included), or none where R170 calls it malformed. -/
def parseBeacon (body : List Byte) : Option (Advert × List EchoEntry) :=
  match DutyMode.ofCode (byteAt body 4) with
  | none => none
  | some mode =>
    let e := byteAt body 9
    let window := natBE ((body.drop 5).take 2)
    if body.length = 12 + 4 * e ∧ e ≤ 12 ∧ 10 ≤ window ∧ window ≤ 100 then
      some ({ cost := min 4095 (natBE (body.take 2)), nextHop := addrOf (natBE ((body.drop 2).take 2)), mode := mode,
              window := window, gateway := isYes (byteAt body 7), room := isYes (byteAt body 8) },
            parseEchoes e (body.drop 10))
    else none

/-- What a DATA body carries (12_formats). `hop` is as carried; above 15 it is read as 15 (R170). -/
structure DataBody where
  origin  : Addr
  dest    : Addr
  seq     : Word16
  hop     : Nat
  payload : List Byte
  deriving DecidableEq, Repr

/-- A DATA body without its check. -/
def DataBody.encode (d : DataBody) : List Byte :=
  packAddrs d.origin d.dest ++ be16 d.seq.toNat ++ [byteOf d.hop] ++ d.payload

/-- The fields of a DATA body (its check included), or none where R124 calls it malformed. -/
def parseData (body : List Byte) : Option DataBody :=
  let d : DataBody :=
    { origin := packedFirst body 0, dest := packedSecond body 0, seq := BitVec.ofNat 16 (natBE ((body.drop 3).take 2)),
      hop := min 15 (byteAt body 5), payload := (bodyBytes body).drop 6 }
  if 9 ≤ body.length ∧ body.length ≤ 1032 ∧ stationAddress d.origin = true ∧ d.dest ≠ 0 ∧ d.dest ≠ broadcast
  then some d else none

/-- The code of a role. -/
def Role.code : Role → Nat
  | .proposer => 0 | .answerer => 1

/-- An OFFER page as read (R44, 12_formats). -/
inductive OfferPage where
  | opening (role : Role) (refuse : Bool) (nonce : Word16) (rateCap : Nat) (reflect : Bool) (terms : Nat)
  | term (number kind value : Nat)
  deriving DecidableEq, Repr

/-- An OPEN page without its check (R44). -/
def openBytes (role : Role) (refuse : Bool) (nonce : Word16) (rateCap : Nat) (reflect : Bool) (terms : Nat) :
    List Byte :=
  [0, byteOf role.code, flagByte refuse] ++ be16 nonce.toNat ++ [byteOf rateCap, flagByte reflect, byteOf terms]

/-- A TERM page without its check (R44). -/
def termBytes (number kind value : Nat) : List Byte := [byteOf number, byteOf kind] ++ be16 value

/-- The page of an OFFER body (its check included), or none where R44 or R170 calls it malformed. -/
def parseOffer (body : List Byte) : Option OfferPage :=
  if byteAt body 0 = 0 then
    if body.length = 10 ∧ byteAt body 1 ≤ 1 ∧ byteAt body 7 ≤ 3 ∧ byteAt body 5 ≤ 7 then
      some (.opening (if byteAt body 1 = 0 then .proposer else .answerer) (isYes (byteAt body 2))
        (BitVec.ofNat 16 (natBE ((body.drop 3).take 2))) (byteAt body 5) (isYes (byteAt body 6)) (byteAt body 7))
    else none
  else if byteAt body 0 ≤ 3 ∧ body.length = 6 then
    some (.term (byteAt body 0) (byteAt body 1) (natBE ((body.drop 2).take 2)))
  else none

/-! ## Check patterns (R152) -/

/-- One step of the 15-bit register; the new bit is bit 0 of the result (R152). -/
def prbsStep (r : BitVec 15) : BitVec 15 :=
  (r <<< (1 : Nat)) ||| (if r.getLsbD 14 != r.getLsbD 13 then 1#15 else 0#15)

/-- `n` outputs, the first the most significant bit of the number built on `acc`, and the register after. -/
def prbsBits : Nat → BitVec 15 → Nat → Nat × BitVec 15
  | 0, r, acc => (acc, r)
  | n + 1, r, acc => prbsBits n (prbsStep r) (2 * acc + (if (prbsStep r).getLsbD 0 then 1 else 0))

/-- `n` bytes of the sequence from a register state. -/
def prbsBytes : Nat → BitVec 15 → List Byte
  | 0, _ => []
  | n + 1, r => byteOf (prbsBits 8 r 0).1 :: prbsBytes n (prbsBits 8 r 0).2

/-- The starting state of the register for probe k (R152). -/
def prbsStart (base k : Nat) : BitVec 15 := BitVec.ofNat 15 ((base + k) % 32767 + 1)

/-- The pattern bytes of probe k (R152). -/
def patternBytes (c : CheckRecord) (k : Nat) : List Byte :=
  match c.pattern with
  | .fixed => List.replicate c.length c.fixed
  | .incrementing => (List.range c.length).map fun i => byteOf (k + i)
  | .prbs => prbsBytes c.length (prbsStart c.base k)

/-- The body of probe k without its check: the number, then the pattern (R151). -/
def probeBody (c : CheckRecord) (k : Nat) : List Byte := be32 k ++ patternBytes c k

/-- The number of bits set in a byte. -/
def bitCount (b : Byte) : Nat := [0, 1, 2, 3, 4, 5, 6, 7].foldl (fun n i => n + (if b.getLsbD i then 1 else 0)) 0

/-- The bits that differ between two patterns; a byte missing or extra counts 8 (R154). -/
def differingBits : List Byte → List Byte → Nat
  | a :: as, b :: bs => bitCount (a ^^^ b) + differingBits as bs
  | [], bs => 8 * bs.length
  | as, [] => 8 * as.length

/-! ## Settings (R162) -/

/-- A field of the settings form: its width in bytes, its range and its default. -/
structure FieldSpec where
  width : Nat
  low   : Nat
  high  : Nat
  dflt  : Nat
  deriving DecidableEq, Repr

/-- Station address to T_settle, in the order of the settings table. -/
def fieldSpecsA : List FieldSpec :=
  [⟨2, 1, 0xFFD, 0⟩, ⟨1, 0, 1, 0⟩, ⟨1, 0, 11, 0⟩, ⟨1, 1, 255, 32⟩, ⟨1, 1, 63, 4⟩, ⟨1, 2, 64, 20⟩, ⟨1, 1, 64, 4⟩,
   ⟨1, 4, 120, 24⟩, ⟨1, 0, 119, 8⟩, ⟨1, 1, 15, 3⟩, ⟨1, 1, 15, 3⟩, ⟨2, 0, 2000, 150⟩, ⟨2, 200, 10000, 1500⟩,
   ⟨1, 8, 200, 48⟩, ⟨2, 2, 600, 30⟩]

/-- M_tgt to N_survey. -/
def fieldSpecsB : List FieldSpec :=
  [⟨1, 20, 200, 72⟩, ⟨1, 2, 60, 10⟩, ⟨1, 1, 8, 3⟩, ⟨1, 1, 30, 5⟩, ⟨2, 1, 600, 20⟩, ⟨1, 0, 31, 31⟩, ⟨1, 0, 7, 7⟩,
   ⟨1, 0, 40, 8⟩, ⟨1, 0, 255, 16⟩, ⟨2, 0, 1023, 64⟩, ⟨1, 0, 255, 6⟩, ⟨2, 16, 4094, 1024⟩, ⟨2, 0, 3600, 30⟩,
   ⟨2, 0, 3600, 300⟩, ⟨1, 10, 100, 25⟩, ⟨1, 1, 32, 8⟩]

/-- K_silence to check pace. -/
def fieldSpecsC : List FieldSpec :=
  [⟨1, 2, 32, 6⟩, ⟨1, 0, 255, 12⟩, ⟨2, 10, 600, 120⟩, ⟨2, 10, 600, 180⟩, ⟨1, 1, 15, 8⟩, ⟨1, 0, 15, 6⟩, ⟨1, 1, 60, 10⟩,
   ⟨2, 64, 1024, 1024⟩, ⟨1, 0, 1, 1⟩, ⟨2, 0, 1000, 0⟩]

/-- The 41 fields of the settings table, in its order (section 11.3, 12_formats). Address and channel have no default.
-/
def fieldSpecs : List FieldSpec := fieldSpecsA ++ fieldSpecsB ++ fieldSpecsC

/-- The values of the settings form: field `i` is present when mask bit `i` is set (12_formats). -/
def readFields : List FieldSpec → Nat → Nat → List Byte → List (Option Nat)
  | [], _, _, _ => []
  | f :: fs, i, mask, bs =>
    (if mask.testBit i then some (natLE (bs.take f.width)) else none) :: readFields fs (i + 1) mask (bs.drop f.width)

/-- The fields a LOAD SETTINGS argument gives, absent ones absent. -/
def settingsGiven (args : List Byte) : List (Option Nat) :=
  readFields fieldSpecs 0 (natLE (args.take 6)) (args.drop 6)

/-- The value given or defaulted for each field (R162). -/
def settingsTaken (args : List Byte) : List Nat :=
  List.zipWith (fun f v => v.getD f.dflt) fieldSpecs (settingsGiven args)

/-- A number brought into a range (R162). -/
def clampTo (low high v : Nat) : Nat := max low (min v high)

/-- Field number `held.length` brought into its range, with H bounded by T_in and S_hi raised above S_lo as held
(R162). -/
def bringField (held : List Nat) (f : FieldSpec) (v : Nat) : Nat :=
  if held.length = 8 then clampTo 0 (held.getD 7 0 - 1) v
  else if held.length = 5 then max (held.getD 4 0 + 1) (clampTo f.low f.high v)
  else clampTo f.low f.high v

/-- Every field brought into its range in the order of the table (R162). -/
def bringAll : List FieldSpec → List Nat → List Nat → List Nat
  | f :: fs, v :: vs, held => bringAll fs vs (held ++ [bringField held f v])
  | _, _, held => held

/-- The settings held for a LOAD SETTINGS argument, as 41 values (R162). -/
def settingsHeld (args : List Byte) : List Nat := bringAll fieldSpecs (settingsTaken args) []

/-- An identity field is present and in range (R162). -/
def identityOk (v : Option Nat) (low high : Nat) : Bool :=
  match v with
  | some n => decide (low ≤ n ∧ n ≤ high)
  | none => false

/-- The station address and the channel are present and in range (R162). -/
def settingsAcceptable (args : List Byte) : Bool :=
  identityOk ((settingsGiven args).getD 0 none) 1 0xFFD && identityOk ((settingsGiven args).getD 2 none) 0 11

/-- The settings record of 41 values in the table's order. -/
def Settings.ofValues (v : List Nat) : Settings :=
  let g := fun i => v.getD i 0
  { address := addrOf (g 0), gateway := isYes (g 1), channel := g 2, bSlow := g 3, sLo := g 4, sHi := g 5, bBase := g 6,
    tIn := g 7, hyst := g 8, eIn := g 9, eOut := g 10, tMin := g 11, tBrief := g 12, dDeep := g 13, tSettle := g 14,
    mTgt := g 15, hTrim := g 16, kSettle := g 17, settleTimeout := g 18, tHold := g 19, pInit := g 20, rateCap := g 21,
    guard := g 22, pFade := g 23, pShadow := g 24, sSw := g 25, cLimit := g 26, tQuiet := g 27, tDoze := g 28,
    wListen := g 29, nSurvey := g 30, kSilence := g 31, floor := g 32, forget := g 33, routeAge := g 34,
    hopLimit := g 35, rMax := g 36, tWait := g 37, maxPayload := g 38, reflect := isYes (g 39), checkPace := g 40 }

/-- The 41 values of a settings record in the table's order. -/
def Settings.values (c : Settings) : List Nat :=
  [c.address.toNat, (flagByte c.gateway).toNat, c.channel, c.bSlow, c.sLo, c.sHi, c.bBase, c.tIn, c.hyst, c.eIn, c.eOut,
   c.tMin, c.tBrief, c.dDeep, c.tSettle, c.mTgt, c.hTrim, c.kSettle, c.settleTimeout, c.tHold, c.pInit, c.rateCap,
   c.guard, c.pFade, c.pShadow, c.sSw, c.cLimit, c.tQuiet, c.tDoze, c.wListen, c.nSurvey, c.kSilence, c.floor, c.forget,
   c.routeAge, c.hopLimit, c.rMax, c.tWait, c.maxPayload, (flagByte c.reflect).toNat, c.checkPace]

/-- The defaults of the settings table, with no address and channel 0: what the model's formulas read while no
settings are held, where no rule reads a setting. -/
def Settings.defaults : Settings := Settings.ofValues (fieldSpecs.map FieldSpec.dflt)

/-- A number in the bytes of its field on the port. -/
def leField (width n : Nat) : List Byte := if width = 2 then le16 n else [byteOf n]

/-- The settings form READ SETTINGS returns: mask bits 0 to 40 set, 41 to 47 clear, then the fields (12_formats). -/
def Settings.form (c : Settings) : List Byte :=
  [0xFF, 0xFF, 0xFF, 0xFF, 0xFF, 0x01] ++ (List.zipWith (fun f v => leField f.width v) fieldSpecs c.values).flatten

/-! ## Port codes (12_formats) -/

/-- The code of a status. -/
def Status.code : Status → Byte
  | .ok => 0x00 | .clamped => 0x01 | .empty => 0x02 | .full => 0x03 | .busy => 0x04 | .wrongState => 0x05
  | .noSuch => 0x06 | .badArgument => 0x07 | .unknownCommand => 0x08

/-- The argument bytes a command takes before any payload; absent for an unrecognised command byte (12_formats). -/
def argCount (code : Byte) : Option Nat :=
  if code = 0x01 then some 60
  else if code = 0x02 ∨ code = 0x03 ∨ code = 0x04 ∨ code = 0x05 ∨ code = 0x11 ∨ code = 0x21 ∨ code = 0x41 ∨ code = 0x43
    then some 0
  else if code = 0x10 then some 6
  else if code = 0x12 ∨ code = 0x30 ∨ code = 0x31 ∨ code = 0x42 then some 1
  else if code = 0x20 then some 2
  else if code = 0x40 then some 7
  else none

/-- The code of a station state. -/
def StationState.code : StationState → Nat
  | .unconfigured => 0 | .ready => 1 | .acquiring => 2 | .onAir => 3

/-- The code of a link state. -/
def LinkState.code : LinkState → Nat
  | .heard => 1 | .offering => 2 | .up => 3 | .lost => 4

/-- The code of a fade state. -/
def FadeState.code : FadeState → Nat
  | .clear => 0 | .entering => 1 | .faded => 2 | .leaving => 3

/-- The code of a trim state. -/
def TrimState.code : TrimState → Nat
  | .idle => 0 | .settling => 1 | .holdoff => 2

/-- The code of a trim outcome. -/
def TrimOutcome.code : TrimOutcome → Nat
  | .set => 0 | .weak => 1 | .strong => 2 | .drift => 3 | .silent => 4

/-- The code of an exchange phase. -/
def Phase.code : Phase → Nat
  | .sendingPages => 0 | .awaitingPages => 1

/-- The code of a NEIGHBOUR event. -/
def LinkEvent.code : LinkEvent → Nat
  | .admitted => 0 | .heard => 1 | .up => 2 | .lost => 3 | .removed => 4

/-- The code of a NEIGHBOUR cause. -/
def LinkCause.code : LinkCause → Nat
  | .none => 0 | .refused => 1 | .timeout => 2 | .tie => 3 | .silent => 4 | .noAck => 5 | .notEchoed => 6
  | .forgotten => 7 | .aged => 8 | .evicted => 9

/-- The code of a FADE class. -/
def FadeClass.code : FadeClass → Nat
  | .blip => 0 | .pass => 1 | .shadowBegun => 2 | .shadowEnded => 3 | .reseeded => 4

/-- The code of a FADE cause. -/
def FadeCause.code : FadeCause → Nat
  | .none => 0 | .settle => 1 | .host => 2

/-- The code of a DROP cause. -/
def DropCause.code : DropCause → Nat
  | .noAck => 0 | .fullAtPeer => 1 | .noPath => 2 | .tooLong => 3 | .stopped => 4

/-- The code of a check end cause. -/
def CheckCause.code : CheckCause → Nat
  | .none => 0 | .countDone => 1 | .stopped => 2 | .saturated => 3 | .linkLost => 4 | .stationStopped => 5

/-- The code of a reset cause. -/
def ResetCause.code : ResetCause → Nat
  | .power => 0 | .pin => 1 | .command => 2

/-- The code of a counter mode. -/
def CounterMode.code : CounterMode → Nat
  | .saturate => 0 | .wrap => 1

/-- The pattern of a code. -/
def Pattern.ofCode : Nat → Option Pattern
  | 0 => some .prbs | 1 => some .fixed | 2 => some .incrementing | _ => none

/-- The counter mode of a code. -/
def CounterMode.ofCode : Nat → Option CounterMode
  | 0 => some .saturate | 1 => some .wrap | _ => none

/-- The kind of a report. -/
def ReportBody.kind : ReportBody → ReportKind
  | .started .. => .started | .neighbour .. => .neighbour | .fade .. => .fade | .trim .. => .trim
  | .route .. => .route | .drop .. => .drop | .check .. => .check | .duty .. => .duty

/-- The code of a report kind. -/
def ReportKind.code : ReportKind → Nat
  | .started => 1 | .neighbour => 2 | .fade => 3 | .trim => 4 | .route => 5 | .drop => 6 | .check => 7 | .duty => 8

/-- A slot byte; 0xFF for none (R171). -/
def slotByte : Option Nat → Byte
  | some i => byteOf i
  | none => 0xFF

/-- A signed value in two bytes, two's complement. -/
def leInt16 (x : Int) : List Byte := le16 (x % 65536).toNat

/-- The five counters in port order, 15 bytes. -/
def Counters.encode (c : Counters) : List Byte :=
  le32 c.sent ++ le32 c.returned ++ le32 c.errored ++ le16 c.bits ++ [byteOf c.overflow]

/-- Report bytes 4 onward, before the padding (12_formats). -/
def ReportBody.encode : ReportBody → List Byte
  | .started cause => [byteOf cause.code]
  | .neighbour event cause after =>
    [byteOf event.code, byteOf cause.code, match after with | some l => byteOf l.code | none => 0]
  | .fade cls cause duration depth F L =>
    [byteOf cls.code, byteOf cause.code] ++ le32 duration ++ [byteOf depth] ++ leInt16 F ++ leInt16 L
  | .trim outcome step clamped echo X count rUsed =>
    [byteOf outcome.code, byteOf step, flagByte clamped, byteOf echo] ++ leInt16 X ++ [byteOf count, byteOf rUsed]
  | .route nextHop cost prevHop prevCost =>
    le16 nextHop.toNat ++ le16 cost ++ le16 prevHop.toNat ++ le16 prevCost
  | .drop count lastTag lastCause lastSeq =>
    [byteOf count] ++ le16 lastTag.toNat ++ [byteOf lastCause.code] ++ le16 lastSeq.toNat
  | .check cause countCode settled counters =>
    [byteOf cause.code, byteOf countCode] ++ le16 settled ++ counters.encode
  | .duty mode previous woken =>
    [byteOf mode.code, byteOf previous.code, flagByte woken] ++ le16 mode.interval

/-- Bytes made up to `n` with 0 (R171). -/
def padTo (n : Nat) (bs : List Byte) : List Byte := bs ++ List.replicate (n - bs.length) 0

/-- The 24 bytes of a report (12_formats). -/
def Report.encode (r : Report) : List Byte :=
  padTo 24 ([byteOf r.body.kind.code] ++ le16 r.addr.toNat ++ [slotByte r.slot] ++ r.body.encode)

/-- The count of a DROP report; 0 for another kind. -/
def ReportBody.dropCount : ReportBody → Nat
  | .drop count .. => count
  | _ => 0

/-- The silence accumulator of a record in ms (R33). -/
def Record.silenceMs (r : Record) : Nat := r.silence / 1000

/-- The 58 bytes of a neighbour row at a moment of the running clock in ms (12_formats, R171). -/
def Record.row (nowMs : Nat) (r : Record) : List Byte :=
  [byteOf r.link.code] ++ le16 r.peer.toNat ++ le32 (min 0xFFFFFFFF (nowMs - r.lastHeard)) ++ le16 r.silenceMs ++
  le16 r.advert.cost ++ le16 r.advert.nextHop.toNat ++
  [byteOf r.advert.mode.code, byteOf r.advert.window, flagByte r.advert.gateway, flagByte r.advert.room] ++
  leInt16 r.F ++ leInt16 r.L ++
  [byteOf r.fade.state.code, byteOf r.fade.count, byteOf r.fade.maxDef, flagByte r.fade.shadow] ++
  (match r.fade.start with | some t => le32 (nowMs - t) | none => [0xFF, 0xFF, 0xFF, 0xFF]) ++
  (match r.trim.echo with | some e => [byteOf e, 1] | none => [0, 0]) ++ [byteOf r.notEchoed] ++
  [byteOf r.trim.step, byteOf r.trim.state.code, byteOf r.trim.count,
   match r.trim.last with | some o => byteOf o.code | none => 0xFF, flagByte r.trim.clamped] ++
  (match r.terms with
    | some t => [byteOf t.rateCeiling] ++ le16 t.maxPayload ++ le16 t.pace ++ [flagByte t.peerReflects]
    | none => [0xFF, 0, 0, 0, 0, 0]) ++
  [byteOf r.trim.rUsed] ++ le16 r.linkCost ++ le16 r.pathCost ++ [flagByte r.eligible] ++
  (match r.exch with | some e => [byteOf e.role.code, byteOf e.phase.code] | none => [0xFF, 0xFF]) ++
  [byteOf r.failStreak] ++ le16 r.hopDrops ++ le16 r.loopDrops ++ le16 r.pathDrops

/-- The row of a slot; an empty slot's is all 0 (R171). -/
def slotRow (nowMs : Nat) : Option Record → List Byte
  | some r => r.row nowMs
  | none => List.replicate 58 0

/-- The 25 bytes of CHECK READ (12_formats). -/
def Checker.readout (c : Checker) : List Byte :=
  [byteOf c.snapshot.slot] ++ le16 c.snapshot.peer.toNat ++ le16 c.snapshot.base ++ [byteOf c.snapshot.mode.code] ++
  le16 c.snapshot.settled ++ [flagByte c.snapshot.running, byteOf c.endCause.code] ++ c.snapshot.counters.encode

/-- The bytes of a delivered frame under TAKE FRAME (12_formats). -/
def Delivery.encode (d : Delivery) : List Byte :=
  le16 d.origin.toNat ++ le16 d.seq.toNat ++ le16 d.payload.length ++ d.payload

/-- The number of probes a count code allows; absent for "until stopped" (R149). -/
def countLimit (code : Nat) : Option Nat :=
  if code < 5 then some (10 ^ code) else none

end Sys2Proof.Machine
end

