-- ==== Sys2Proof/Machine/Flags.lean ====
section
/-! DEFINITION. The computations of chapters 04 to 07 on one record (margin filter, baseline, fade machine, trim,
rate class, costs) and the indications computed from the state (medium busy, listening, attention). -/

namespace Sys2Proof.Machine

/-! ## Margin (R63, R67 to R70). Divisions truncate toward zero. -/

/-- The normalised measurement m (R63). A power step above 31 is read as 31. -/
def normalise (raw step : Nat) : Nat := min 255 (raw + 2 * (31 - min 31 step))

/-- The gain β for a speed s (R67). -/
def filterGain (c : Settings) (s : Int) : Int :=
  if s ≤ c.sLo then c.bSlow
  else if s < c.sHi then c.bSlow + Int.tdiv ((256 - c.bSlow) * (s - c.sLo)) (c.sHi - c.sLo)
  else 256

/-- A step of `gain`/256 of the gap d, at least 1 in its direction when d is not 0 (R68, R70). -/
def forcedStep (gain d : Int) : Int :=
  if Int.tdiv (gain * d) 256 = 0 then d.sign else Int.tdiv (gain * d) 256

/-- F after one filter step toward 16m (R67, R68). -/
def filterStep (c : Settings) (F : Int) (m : Nat) : Int :=
  F + forcedStep (filterGain c (Int.tdiv |16 * (m : Int) - F| 16)) (16 * m - F)

/-- L after one baseline step toward F (R70). -/
def baselineStep (c : Settings) (F L : Int) : Int := L + forcedStep c.bBase (F - L)

/-! ## Fades (R76 to R82) -/

/-- The CLEAR row of R76. -/
def Fade.none : Fade :=
  { state := .clear, count := 0, start := Option.none, maxDef := 0, shadow := false, brief := Option.none,
    settle := Option.none }

/-- The enter level in fine units (R77). -/
def enterLevel (c : Settings) : Int := 16 * c.tIn
/-- The exit level in fine units (R77). -/
def exitLevel (c : Settings) : Int := 16 * ((c.tIn : Int) - c.hyst)

/-- A deficit in qdB, truncated, never negative (R76). -/
def depthOf (D : Int) : Nat := (Int.tdiv D 16).toNat

/-- The state is FADED or LEAVING: the states in which a fade is held. -/
def FadeState.held : FadeState → Bool
  | .faded => true | .leaving => true | .clear => false | .entering => false

/-- The two expiries of R83 coincide: T_settle at or below T_brief. They are then one event, the settle expiry. -/
def settleCarriesBrief (c : Settings) : Bool := decide (1000 * c.tSettle ≤ c.tBrief)

/-- The fade part on entry to FADED at a moment in ms, with its expiries (R79, R83). -/
def Fade.enter (c : Settings) (nowMs depth : Nat) : Fade :=
  { state := .faded, count := 0, start := some nowMs, maxDef := depth, shadow := false,
    brief := if settleCarriesBrief c then Option.none else some (nowMs + c.tBrief),
    settle := some (nowMs + max (1000 * c.tSettle) c.tBrief) }

/-- The class of a fade that ends under R81 with duration t and depth, if it has one (R82). -/
def classify (c : Settings) (shadow : Bool) (t depth : Nat) : Option FadeClass :=
  if shadow || decide (c.tBrief ≤ t) then some .shadowEnded
  else if t < c.tMin then Option.none
  else if c.dDeep ≤ depth then some .pass
  else some .blip

/-- Stage 3 of a measurement (R78 to R81): the fade part after, and the class, duration and depth of a fade that ends
with a report. -/
def fadeStep (c : Settings) (nowMs : Nat) (D : Int) (f : Fade) : Fade × Option (FadeClass × Nat × Nat) :=
  match f.state with
  | .clear =>
    if D < enterLevel c then (f, Option.none)
    else if c.eIn ≤ 1 then (Fade.enter c nowMs (depthOf D), Option.none)
    else ({ f with state := .entering, count := 1, maxDef := depthOf D }, Option.none)
  | .entering =>
    if D < enterLevel c then (Fade.none, Option.none)
    else if c.eIn ≤ f.count + 1 then (Fade.enter c nowMs (max f.maxDef (depthOf D)), Option.none)
    else ({ f with count := f.count + 1, maxDef := max f.maxDef (depthOf D) }, Option.none)
  | .faded =>
    if exitLevel c ≤ D then ({ f with maxDef := max f.maxDef (depthOf D) }, Option.none)
    else if c.eOut ≤ 1 then endOfFade
    else ({ f with state := .leaving, count := 1, maxDef := max f.maxDef (depthOf D) }, Option.none)
  | .leaving =>
    if exitLevel c ≤ D then ({ f with state := .faded, count := 0, maxDef := max f.maxDef (depthOf D) }, Option.none)
    else if c.eOut ≤ f.count + 1 then endOfFade
    else ({ f with count := f.count + 1, maxDef := max f.maxDef (depthOf D) }, Option.none)
where
  /-- The fade ends: the CLEAR row, and its class, duration and depth (R81, R82). -/
  endOfFade : Fade × Option (FadeClass × Nat × Nat) :=
    (Fade.none, (classify c f.shadow (nowMs - f.start.getD nowMs) f.maxDef).map
      fun k => (k, nowMs - f.start.getD nowMs, f.maxDef))

/-! ## Trim (R95, R97, R98) -/

/-- The expected margin X for an echo and a power step (R95). -/
def expectedMargin (echo step : Nat) : Int := (echo : Int) - 2 * (31 - (step : Int))

/-- X is within the trim window (R95). -/
def inWindow (c : Settings) (X : Int) : Bool :=
  decide ((c.mTgt : Int) - c.hTrim ≤ X) && decide (X ≤ (c.mTgt : Int) + c.hTrim)

/-- The wanted step before the clamp (R97). -/
def wantedStep (c : Settings) (echo : Nat) : Int := 31 - Int.tdiv ((echo : Int) - c.mTgt) 2

/-- The outcome of a judged trim (R98), the findings in the order of the table. -/
def judgeTrim (c : Settings) (X : Int) (step : Nat) : TrimOutcome :=
  if inWindow c X then .set
  else if step = 31 ∧ X < (c.mTgt : Int) - c.hTrim then .weak
  else if step = 0 ∧ (c.mTgt : Int) + c.hTrim < X then .strong
  else .drift

/-- The trim part of a record outside UP, its clamped note and last outcome kept (R91). -/
def Trim.outsideUp (t : Trim) : Trim :=
  { t with echo := Option.none, step := 31, state := .idle, count := 0, timer := Option.none, rUsed := 0 }

/-! ## Rate class (R104) -/

/-- The margin Q a class requires (R104). -/
def classMargin (cls : Nat) : Nat := [0, 16, 28, 40, 52, 68, 84, 100].getD cls 0

/-- The highest class at or below `n` whose Q plus the guard is at or below X; 0 when none but class 0 is (R104). -/
def highestClass (guard : Nat) (X : Int) : Nat → Nat
  | 0 => 0
  | n + 1 => if (classMargin (n + 1) : Int) + guard ≤ X then n + 1 else highestClass guard X n

/-- The rate class r of an UP record (R104). -/
def rateClass (c : Settings) (r : Record) : Nat :=
  match r.trim.echo, r.terms with
  | some e, some t => min (highestClass c.guard (expectedMargin e r.trim.step) 7) t.rateCeiling
  | _, _ => 0

/-- r_used: 0 outside UP, one class down while a fade is held (R104). -/
def rateUsed (c : Settings) (r : Record) : Nat :=
  if r.link = .up then (if r.fade.state.held then rateClass c r - 1 else rateClass c r) else 0

/-! ## Costs (R107 to R109) -/

/-- The link cost K of a class (R107). -/
def classCost (cls : Nat) : Nat := [64, 40, 27, 20, 15, 11, 8, 7].getD cls 64

/-- The link cost of a record (R107). -/
def linkCostOf (c : Settings) (r : Record) : Nat :=
  classCost r.trim.rUsed + (if r.fade.state.held then c.pFade else 0) + (if r.fade.shadow then c.pShadow else 0)

/-- The path cost through a record (R108). -/
def pathCostOf (c : Settings) (r : Record) : Nat := min 4095 (r.advert.cost + linkCostOf c r)

/-- The eligible flag of a record (R109). -/
def eligibleOf (c : Settings) (r : Record) : Bool :=
  decide (r.link = .up) && decide (r.advert.cost < 4095) && decide (r.advert.nextHop ≠ c.address) &&
    decide (pathCostOf c r < c.cLimit)

/-- The record with its three derived values recomputed (R110). -/
def Record.costed (c : Settings) (r : Record) : Record :=
  { r with linkCost := linkCostOf c r, pathCost := pathCostOf c r, eligible := eligibleOf c r }

/-! ## Peers (R33, R146) -/

/-- The silence limit of a record in ms (R33). -/
def silenceLimit (c : Settings) (r : Record) : Nat := c.kSilence * r.advert.mode.interval

/-- The peer is listening as far as this station knows (R146). -/
def Record.listening (r : Record) : Bool := decide (r.advert.mode ≠ .doze) || r.windowEnd.isSome

/-! ## Indications computed from the state -/

/-- The settings held; the table's defaults stand in where none are, in station states where no rule reads them. -/
def State.cfg (s : State) : Settings := s.settings.getD Settings.defaults

/-- The running clock in ms. -/
def State.nowMs (s : State) : Nat := s.now / 1000

/-- The station is ACQUIRING or ON AIR. -/
def State.operating (s : State) : Bool := decide (s.station = .acquiring) || decide (s.station = .onAir)

/-- The Duty Controller asks for listening (R143). -/
def State.dutyListens (s : State) : Bool :=
  decide (s.station = .acquiring) ||
    (decide (s.station = .onAir) && (decide (s.duty.mode ≠ .doze) || decide (s.duty.listen ≠ .none)))

/-- The Air Sender needs the receiver: DEFER, BACKOFF or AWAIT ACK (R3). -/
def TxState.contending : TxState → Bool
  | .defer => true | .backoff => true | .awaitAck => true | .idle => false | .sending => false

/-- The receiver is asked to listen (R3). -/
def State.askedToListen (s : State) : Bool := s.operating && (s.dutyListens || s.tx.state.contending)

/-- The transmitter is on, for a frame or for an ACK (R3). -/
def State.transmitting (s : State) : Bool := decide (s.tx.state = .sending) || s.tx.ackAir.isSome

/-- The medium-busy indication (R4). In OFF nothing is sensed and the indication is not used. -/
def State.mediumBusy (s : State) : Bool :=
  match s.rx.state with
  | .off => false | .hunt => s.carrier | .header => true | .body => true | .discard => true

/-- The medium is sensed and idle: what a guard gap and a backoff slot need (R4, R18). -/
def State.sensedIdle (s : State) : Bool := decide (s.rx.state = .hunt) && !s.carrier

/-- The condition of the attention line (R168). -/
def State.attention (s : State) : Bool := !s.inReset && (!s.reports.isEmpty || !s.ring.isEmpty)

/-- A transaction holds a pool buffer: that of a SEND that has taken one (R119, R121). -/
def holdsBuffer : Option Transaction → Bool
  | some t => t.sendHeld
  | none => false

/-- The port holds a pool buffer (R119). -/
def State.portHolds (s : State) : Bool := holdsBuffer s.port

end Sys2Proof.Machine
end

