-- ==== Sys2Proof/Machine/Ops.lean ====
section
/-! DEFINITION. The shared operations on the state: the table, the report queue, the pool, the random source, the
Path Selector's reselection, the Trim Unit's recomputation, and the loss and removal of a record with every effect
the manual announces. -/

namespace Sys2Proof.Machine

/-! ## The Neighbour Table (R25) -/

/-- The record in a slot, if the slot exists and is not empty. -/
def State.rec? (s : State) (i : Nat) : Option Record := (s.slots[i]?).join

/-- The state with a slot's contents replaced; a slot above 23 changes nothing. -/
def State.setSlot (i : Nat) (o : Option Record) (s : State) : State := { s with slots := s.slots.set i o }

/-- The state with the record of a slot changed by `f`; an empty slot stays empty. -/
def State.modRec (i : Nat) (f : Record → Record) (s : State) : State :=
  match s.rec? i with
  | some r => s.setSlot i (some (f r))
  | none => s

/-- The slot that holds the record of a peer address, if one does. -/
def State.findPeer (s : State) (a : Addr) : Option Nat :=
  s.slots.findIdx? fun o => match o with | some r => decide (r.peer = a) | none => false

/-- The record of a peer address, if there is one. -/
def State.recOf (s : State) (a : Addr) : Option Record := (s.findPeer a).bind s.rec?

/-- A slot holds a record in UP. -/
def isUp : Option Record → Bool
  | some r => decide (r.link = .up)
  | none => false

/-- The number of records in UP (R25). -/
def State.upCount (s : State) : Nat := s.slots.countP isUp

/-- The lowest-numbered empty slot (R25). -/
def State.emptySlot (s : State) : Option Nat := s.slots.findIdx? Option.isNone

/-- Work has become available to the Air Sender in this command (R14). -/
def State.noteWork (s : State) : State := { s with workAvailable := true }

/-! ## The random source (log 5) -/

/-- A number drawn from 0 to `n - 1`, and the state after the draw. -/
def State.drawBelow (n : Nat) (s : State) : Nat × State := (Config.draw s.draws % n, { s with draws := s.draws + 1 })

/-! ## The report queue (R167) -/

/-- The contents after a report meets a pending one with its key: overwritten, but for DROP, whose count adds one,
stopping at 255 (R135, R167). -/
def coalesce : ReportBody → ReportBody → ReportBody
  | .drop count _ _ _, .drop _ tag cause seq => .drop (min 255 (count + 1)) tag cause seq
  | _, body => body

/-- A pending report has the key of kind and address (R167). -/
def hasKey (kind : ReportKind) (a : Addr) (r : Report) : Bool := decide (r.body.kind = kind) && decide (r.addr = a)

/-- The queue with the first report of the key overwritten in place, or none when no report has the key. -/
def overwrite (a : Addr) (slot : Option Nat) (body : ReportBody) (stamp : Nat) : List Report → Option (List Report)
  | [] => none
  | r :: rs =>
    if hasKey body.kind a r then some ({ addr := a, slot := slot, body := coalesce r.body body, stamp := stamp } :: rs)
    else (overwrite a slot body stamp rs).map (r :: ·)

/-- A block's report placed in the queue: overwritten in place, joined at the tail, or discarded with the overrun
marker set (R167). -/
def State.putReport (a : Addr) (slot : Option Nat) (body : ReportBody) (s : State) : State :=
  match overwrite a slot body s.serial s.reports with
  | some q => { s with reports := q, serial := s.serial + 1 }
  | none =>
    if s.reports.length < 32 then
      { s with reports := s.reports ++ [{ addr := a, slot := slot, body := body, stamp := s.serial }],
               serial := s.serial + 1 }
    else { s with overrun := true, discards := s.discards + 1 }

/-! ## The pool (R119, R120, R13) -/

/-- A buffer comes back: to the receiver's standing request if one stands, otherwise to the pool (R120). -/
def State.returnBuffer (s : State) : State :=
  if s.rx.request && !s.rx.holds then { s with rx := { s.rx with holds := true, request := false } }
  else { s with free := s.free + 1 }

/-- The receiver, holding none, takes a free buffer, or makes its standing request when none is free (R13). -/
def State.receiverTakes (s : State) : State :=
  if s.rx.holds then s
  else if 0 < s.free then { s with free := s.free - 1, rx := { s.rx with holds := true, request := false } }
  else { s with rx := { s.rx with request := true } }

/-! ## Path Selector (R110 to R116) -/

/-- `a` is a better choice than `b`: less path cost, or the lower peer address at the same cost (R111). -/
def Record.betterThan (a b : Record) : Bool :=
  decide (a.pathCost < b.pathCost) || (decide (a.pathCost = b.pathCost) && decide (a.peer.toNat < b.peer.toNat))

/-- The best eligible record of the slots from number `i` on, against the best so far (R111). -/
def bestFrom : List (Option Record) → Nat → Option (Nat × Record) → Option (Nat × Record)
  | [], _, best => best
  | none :: rest, i, best => bestFrom rest (i + 1) best
  | some r :: rest, i, best =>
    if r.eligible then
      match best with
      | some b => bestFrom rest (i + 1) (if r.betterThan b.2 then some (i, r) else some b)
      | none => bestFrom rest (i + 1) (some (i, r))
    else bestFrom rest (i + 1) best

/-- The best choice, if any record is eligible (R111). -/
def State.bestChoice (s : State) : Option (Nat × Record) := bestFrom s.slots 0 none

/-- The record the next hop names, while it is still the record in its slot and eligible. -/
def State.currentHop (s : State) : Option (Nat × Record) :=
  match s.nextHop with
  | none => none
  | some h =>
    match s.rec? h.slot with
    | some r => if r.eligible && decide (r.peer = h.addr) then some (h.slot, r) else none
    | none => none

/-- The next hop after a reselection, as slot and record (R112, R113). -/
def State.selectHop (s : State) : Option (Nat × Record) :=
  if s.cfg.gateway then none
  else
    match s.currentHop, s.bestChoice with
    | none, best => best
    | some cur, none => some cur
    | some cur, some best =>
      if best.1 = cur.1 then some cur
      else if best.2.pathCost + s.cfg.sSw ≤ cur.2.pathCost then some best else some cur

/-- The advertised cost that goes with a next hop (R113, R114). -/
def State.costThrough (s : State) (hop : Option (Nat × Record)) : Nat :=
  if s.cfg.gateway then 0 else match hop with | some h => h.2.pathCost | none => 4095

/-- A next hop as held (R106). -/
def hopOf (hop : Option (Nat × Record)) : Option NextHop :=
  hop.map fun h => { slot := h.1, addr := h.2.peer }

/-- The address of a next hop, 0x000 for none. -/
def hopAddr (h : Option NextHop) : Addr := match h with | some n => n.addr | none => 0

/-- Reselection (R115): the next hop, the advertised cost, and a ROUTE report when either differs from before (R116).
A change of next hop makes work available (R14). -/
def State.reselect (s : State) : State :=
  if s.nextHop = hopOf s.selectHop ∧ s.advCost = s.costThrough s.selectHop then s
  else
    State.putReport 0 ((hopOf s.selectHop).map NextHop.slot)
      (.route (hopAddr (hopOf s.selectHop)) (s.costThrough s.selectHop) (hopAddr s.nextHop) s.advCost)
      { s with nextHop := hopOf s.selectHop, advCost := s.costThrough s.selectHop,
               workAvailable := s.workAvailable || decide (s.nextHop ≠ hopOf s.selectHop) }

/-- A record's costs recomputed, and reselection when its path cost or eligible flag has changed (R110, R115). -/
def State.recost (i : Nat) (s : State) : State :=
  match s.rec? i with
  | none => s
  | some r =>
    if (r.costed s.cfg).pathCost = r.pathCost ∧ (r.costed s.cfg).eligible = r.eligible then
      s.setSlot i (some (r.costed s.cfg))
    else (s.setSlot i (some (r.costed s.cfg))).reselect

/-! ## Trim Unit (R93, R96, R97, R104) -/

/-- r_used recomputed and the Path Selector told (R104, R110). -/
def State.rerate (i : Nat) (s : State) : State :=
  (s.modRec i fun r => { r with trim := { r.trim with rUsed := rateUsed s.cfg r } }).recost i

/-- The trigger of R96 holds on a record. -/
def trimTriggers (c : Settings) (r : Record) : Bool :=
  decide (r.link = .up) && decide (r.fade.state = .clear) && decide (r.trim.state = .idle) &&
    (match r.trim.echo with | some e => !inWindow c (expectedMargin e r.trim.step) | none => false)

/-- The trim part at the start of a trim (R97); the settle timeout starts. -/
def Trim.started (c : Settings) (now : Nat) (t : Trim) : Trim :=
  match t.echo with
  | none => t
  | some e =>
    { t with step := (max 0 (min 31 (wantedStep c e))).toNat,
             clamped := decide (wantedStep c e < 0) || decide (31 < wantedStep c e),
             state := .settling, count := 0, timer := some (now + secs c.settleTimeout) }

/-- The trigger assessed, and a trim started where it holds (R96, R97). -/
def State.assessTrim (i : Nat) (s : State) : State :=
  s.modRec i fun r => if trimTriggers s.cfg r then { r with trim := r.trim.started s.cfg s.now } else r

/-- A settling that ends with an outcome: the trim part after (R98, R99). -/
def Trim.ended (c : Settings) (now : Nat) (o : TrimOutcome) (t : Trim) : Trim :=
  { t with last := some o, count := 0,
           state := if o = .set then .idle else .holdoff,
           timer := if o = .set then none else some (now + secs c.tHold) }

/-- A settling ends with an outcome on a record: the trim part, then the TRIM report with the count reached, X, E and
r_used after the outcome (R98, R99, R103). -/
def State.endTrim (i : Nat) (o : TrimOutcome) (s : State) : State :=
  match s.rec? i with
  | none => s
  | some r =>
    let after := { r with trim := r.trim.ended s.cfg s.now o }
    let echo := r.trim.echo.getD 0
    State.putReport r.peer (some i)
      (.trim o r.trim.step r.trim.clamped echo (expectedMargin echo r.trim.step) r.trim.count (rateUsed s.cfg after))
      (s.setSlot i (some after))

/-- An echo is taken (R93): E, settling, trigger, rate class. Only an UP record takes one (R92). -/
def State.takeEcho (i : Nat) (echo : Nat) (s : State) : State :=
  match s.rec? i with
  | none => s
  | some r =>
    if r.link = .up then
      let settling := decide (r.trim.state = .settling)
      let t := { r.trim with echo := some echo, count := if settling then r.trim.count + 1 else r.trim.count }
      let s1 := s.setSlot i (some { r with trim := t })
      let s2 :=
        if settling && decide (s.cfg.kSettle ≤ t.count) then
          s1.endTrim i (judgeTrim s.cfg (expectedMargin echo t.step) t.step)
        else s1
      (s2.assessTrim i).rerate i
    else s

/-! ## The Margin Tracker's announcement and measurement (R64, R86) -/

/-- A change of fade state or shadow flag announced to the Trim Unit and the Path Selector (R86); `was` is the fade
part before. A change into CLEAR has the trigger assessed at the announcement (R96), with the E then held: an echo of
the same frame has been taken by then (R94, log 37). -/
def State.announceFade (i : Nat) (was : Fade) (s : State) : State :=
  match s.rec? i with
  | none => s
  | some r =>
    if r.fade.state = was.state ∧ r.fade.shadow = was.shadow then s
    else ((if r.fade.state = .clear ∧ was.state ≠ .clear then s.assessTrim i else s)).rerate i

/-- A record after the stages of one measurement m, and the fade that ended with a report (R64, R66). -/
def Record.measured (c : Settings) (nowMs m : Nat) (seed : Bool) (r : Record) :
    Record × Option (FadeClass × Nat × Nat) :=
  if seed then ({ r with F := 16 * m, L := 16 * m }, none)
  else
    let F := filterStep c r.F m
    let f := fadeStep c nowMs (r.L - F) r.fade
    ({ r with F := F, fade := f.1, L := if f.1.state = .clear then baselineStep c F r.L else r.L }, f.2)

/-- A FADE report (R88). -/
def State.fadeReport (i : Nat) (r : Record) (cls : FadeClass) (cause : FadeCause) (duration depth : Nat) (s : State) :
    State :=
  s.putReport r.peer (some i) (.fade cls cause duration depth r.F r.L)

/-- One measurement of a record (R64): the stages, the FADE report, the announcement. -/
def State.measure (i m : Nat) (seed : Bool) (s : State) : State :=
  match s.rec? i with
  | none => s
  | some r =>
    let after := r.measured s.cfg s.nowMs m seed
    let s1 := s.setSlot i (some after.1)
    let s2 := match after.2 with
      | some (cls, duration, depth) => s1.fadeReport i after.1 cls .none duration depth
      | none => s1
    s2.announceFade i r.fade

/-- A baseline rebuilt from F with the fade part ended (R74, R85), its FADE report RESEEDED, and the announcement. -/
def State.rebuildBaseline (i : Nat) (cause : FadeCause) (duration : Nat) (s : State) : State :=
  match s.rec? i with
  | none => s
  | some r =>
    let after := { r with L := r.F, fade := Fade.none }
    ((s.setSlot i (some after)).fadeReport i after .reseeded cause duration r.fade.maxDef).announceFade i r.fade

/-! ## Link Checker: the end of a check (R157) -/

/-- A running check. -/
def Checker.running (c : Checker) : Bool := decide (c.state ≠ .idle)

/-- A running check ends with a cause and makes its CHECK report; an IDLE checker is left alone (R157). -/
def State.endCheck (cause : CheckCause) (s : State) : State :=
  match s.check.running, s.check.record with
  | true, some c =>
    State.putReport c.peer (some c.slot) (.check cause c.countCode c.settled s.check.live)
      { s with check := { s.check with state := .idle, endCause := cause } }
  | _, _ => s

/-- The record under check has left UP or been removed (R36, R157). -/
def State.endCheckOn (i : Nat) (s : State) : State :=
  match s.check.record with
  | some c => if c.slot = i then s.endCheck .linkLost else s
  | none => s

/-! ## Loss and removal (R36 to R38) -/

/-- The reflect buffer freed when it holds a REFLECT for the prober, unless that REFLECT is on air (R16, R153). -/
def State.withdrawReflect (prober : Addr) (s : State) : State :=
  match s.tx.reflect with
  | some b =>
    if b.prober = prober ∧ ¬(s.tx.state = .sending ∧ s.tx.chosen = some (.reflect b.id)) then
      { s with tx := { s.tx with reflect := none } }
    else s
  | none => s

/-- Every return path entry through a slot removed; a change makes work available (R133, R14). -/
def State.removePathsVia (i : Nat) (s : State) : State :=
  { s with paths := s.paths.filter fun p => decide (p.via ≠ i) }

/-- What the other blocks do when the link of a slot leaves UP, after the Table's own report (R36): reselection with
its ROUTE report, then return paths, the check with its CHECK report, and the reflect buffer. -/
def State.announceLoss (i : Nat) (peer : Addr) (s : State) : State :=
  (((s.reselect).removePathsVia i).endCheckOn i).withdrawReflect peer

/-- A record as the loss of its link leaves it (R36, R87, R91). -/
def Record.lost (c : Settings) (r : Record) : Record :=
  Record.costed c { r with link := .lost, fade := Fade.none, trim := r.trim.outsideUp, terms := none, failStreak := 0,
                           notEchoed := 0 }

/-- A record is removed (R38): its slot emptied, the report REMOVED first, the sources of queued frames made absent
(R136), and for an UP record every announcement of a loss. -/
def State.removeRecord (i : Nat) (cause : LinkCause) (s : State) : State :=
  match s.rec? i with
  | none => s
  | some r =>
    let s1 := (s.setSlot i none).putReport r.peer (some i) (.neighbour .removed cause none)
    let s2 := { s1 with fwd := s1.fwd.map fun (e : Entry) => if e.source = some i then { e with source := none } else e,
                        workAvailable := true }
    if r.link = .up then s2.announceLoss i r.peer else s2.reselect

/-- A record is in HEARD or LOST and its last-heard age has reached the forget time (R37). -/
def State.pastForget (s : State) (r : Record) : Bool :=
  (decide (r.link = .heard) || decide (r.link = .lost)) && decide (1000 * s.cfg.forget ≤ s.nowMs - r.lastHeard)

/-- A record in HEARD or LOST whose last-heard age has reached the forget time is removed AGED (R37). -/
def State.ageCheck (i : Nat) (s : State) : State :=
  match s.rec? i with
  | none => s
  | some r => if s.pastForget r then s.removeRecord i .aged else s

/-- An UP link becomes LOST with a cause (R36), and the record ages at once if its age is past the forget time
(R37). -/
def State.loseLink (i : Nat) (cause : LinkCause) (s : State) : State :=
  match s.rec? i with
  | none => s
  | some r =>
    if r.link = .up then
      let s1 := (s.setSlot i (some (r.lost s.cfg))).putReport r.peer (some i) (.neighbour .lost cause (some .lost))
      (s1.noteWork.announceLoss i r.peer).ageCheck i
    else s

/-- A NO ACK exhaustion of a DATA frame against a neighbour: the failure streak of an UP record rises, and at 3 the
link is lost (R34). -/
def State.noAckExhausted (peer : Addr) (s : State) : State :=
  match s.findPeer peer with
  | none => s
  | some i =>
    match s.rec? i with
    | none => s
    | some r =>
      if r.link = .up then
        let s1 := s.setSlot i (some { r with failStreak := r.failStreak + 1 })
        if 3 ≤ r.failStreak + 1 then s1.loseLink i .noAck else s1
      else s

/-! ## Relay Unit: drops and resolution (R127, R135) -/

/-- The forward queue without the first entry of an identity. -/
def State.dequeue (id : Nat) (s : State) : State := { s with fwd := s.fwd.eraseP fun e => decide (e.id = id) }

/-- The queued entry of an identity. -/
def State.entry? (id : Nat) (s : State) : Option Entry := s.fwd.find? fun e => decide (e.id = id)

/-- A 16-bit row counter raised, stopping at 65,535 (R40). -/
def raise16 (n : Nat) : Nat := min 65535 (n + 1)

/-- What a drop makes known: a DROP report for a host frame, the no-path counter of the source row for a transit
frame dropped NO PATH, nothing otherwise (R128 to R130, R135, R40). A DROP report holds no slot, also where its final
destination has a record: DESIGN CHOICE (log 44). -/
def State.recordDrop (e : Entry) (cause : DropCause) (s : State) : State :=
  match e.tag, e.source, cause with
  | some tag, _, _ => s.putReport e.dest none (.drop 1 tag cause e.seq)
  | none, some i, .noPath => s.modRec i fun r => { r with pathDrops := raise16 r.pathDrops }
  | none, _, _ => s

/-- A queued frame is dropped with a cause: it leaves the queue, its buffer comes back, the drop is recorded. -/
def State.dropEntry (id : Nat) (cause : DropCause) (s : State) : State :=
  match s.entry? id with
  | none => s
  | some e => ((s.dequeue id).returnBuffer).recordDrop e cause

/-- A queued frame is released on an ACK ACCEPTED (R128). -/
def State.releaseEntry (id : Nat) (s : State) : State :=
  match s.entry? id with
  | none => s
  | some _ => (s.dequeue id).returnBuffer

/-- The via slot of a destination's return path entry. -/
def State.pathTo (s : State) (dest : Addr) : Option Nat :=
  (s.paths.find? fun p => decide (p.dest = dest)).map ReturnPath.via

/-- The slot a queued frame's final destination resolves to (R127). -/
def State.resolve (s : State) (dest : Addr) : Option Nat :=
  match (s.findPeer dest).bind fun i => if isUp (s.rec? i) then some i else none with
  | some i => some i
  | none =>
    match s.pathTo dest with
    | some i => some i
    | none => if s.cfg.gateway then none else s.nextHop.map NextHop.slot

/-- The age of a queued frame has reached T_wait (R129). -/
def State.pastWait (s : State) (e : Entry) : Bool := decide (1000 * s.cfg.tWait ≤ s.nowMs - e.entered)

/-- The frame in flight is this queue entry (R129). -/
def State.inFlight (s : State) (id : Nat) : Bool :=
  match s.tx.chosen with
  | some (.data d _) => decide (d = id)
  | _ => false

end Sys2Proof.Machine
end

