-- ==== Sys2Proof/Machine/OfferOps.lean ====
section
/-! DEFINITION. The Offer Engine (03_link_offer_exchange) and admission to the table (R26 to R31): the shared
operations that FRAME_END, ACK_WAIT_EXPIRY and the offer timers call. -/

namespace Sys2Proof.Machine

/-- The holdoff after REFUSED or TIMEOUT: 10 s (R59). -/
def offerHoldoff : Nat := secs 10
/-- The exchange timer: 2 s (R58). -/
def exchangeTime : Nat := secs 2
/-- The initiation wait: 3 s (R46). -/
def initiationTime : Nat := secs 3

/-! ## Pages (R44, R47, R48) -/

/-- The contents of page `number` of an exchange: the OPEN, TERM 1 with the own max payload, TERM 2 with the check
pace (R44). -/
def pageBytes (c : Settings) (x : Exchange) (number : Nat) : List Byte :=
  if number = 0 then openBytes x.role x.refusing x.ownNonce c.rateCap c.reflect (if x.refusing then 0 else 2)
  else if number = 1 then termBytes 1 1 c.maxPayload
  else termBytes 2 2 c.checkPace

/-- The exchange part of a slot changed by `f`. -/
def State.modExch (i : Nat) (f : Exchange → Exchange) (s : State) : State :=
  s.modRec i fun r => { r with exch := r.exch.map f }

/-- A page of a slot's exchange is made ready: a pending control frame with this moment as its ready time (R16, R47). -/
def State.readyPage (i number : Nat) (s : State) : State :=
  { s.modExch i fun x =>
      { x with phase := .sendingPages, nextPage := number,
               page := some { id := s.serial, ready := s.now, number := number, bytes := pageBytes s.cfg x number,
                              attempts := 0 } } with
    serial := s.serial + 1, workAvailable := true }

/-! ## Requests to the Table (R32) -/

/-- The exchange fails: the record returns to HEARD with a cause and a holdoff in µs, 0 meaning it has ended at once
(R55); the report; ageing at once (R37). -/
def State.toHeard (i : Nat) (cause : LinkCause) (holdoff : Nat) (s : State) : State :=
  match s.rec? i with
  | none => s
  | some r =>
    let after := { r with link := .heard, exch := none, initWait := none,
                          holdoff := if holdoff = 0 then none else some (s.now + holdoff) }
    (((s.setSlot i (some after)).putReport r.peer (some i) (.neighbour .heard cause (some .heard))).noteWork).ageCheck i

/-- The negotiated terms of an exchange (R45). -/
def termsOf (c : Settings) (x : Exchange) : Terms :=
  { rateCeiling := min c.rateCap (match x.peer with | some p => p.rateCap | none => c.rateCap),
    maxPayload := min c.maxPayload (x.maxPayload.getD 1024),
    pace := max c.checkPace (x.pace.getD 0),
    peerReflects := match x.peer with | some p => p.reflect | none => false }

/-- The record on reaching UP (R60). -/
def Record.reachedUp (c : Settings) (x : Exchange) (r : Record) : Record :=
  { r with link := .up, terms := some (termsOf c x), exch := none, holdoff := none, initWait := none,
           trim := { r.trim with step := c.pInit, state := .idle, count := 0, timer := none, echo := none, rUsed := 0 },
           failStreak := 0, notEchoed := 0 }

/-- A request to complete an exchange: granted while fewer than 12 are UP, else REFUSED with a holdoff of 10 s (R32).
The NEIGHBOUR report comes before the ROUTE report: DEDUCED (log 25). -/
def State.requestUp (i : Nat) (s : State) : State :=
  match s.rec? i with
  | none => s
  | some r =>
    match r.exch with
    | none => s
    | some x =>
      if s.upCount < 12 then
        (((s.setSlot i (some (r.reachedUp s.cfg x))).putReport r.peer (some i)
          (.neighbour .up .none (some .up))).noteWork).recost i
      else s.toHeard i .refused offerHoldoff

/-! ## Opening and candidacy (R46, R47) -/

/-- A fresh exchange part; its nonce is drawn by the caller (R47, R50, R56). -/
def Exchange.fresh (role : Role) (refusing : Bool) (nonce : Nat) (timer : Nat) : Exchange :=
  { role := role, phase := .sendingPages, refusing := refusing, ownNonce := BitVec.ofNat 16 nonce, peer := none,
    nextPage := 0, ownCount := if refusing then 0 else 2, expected := if refusing then 0 else 1, lastPage := none,
    maxPayload := none, pace := none, timer := timer, page := none }

/-- A record enters OFFERING with an exchange part (R32: the request to begin is granted). -/
def State.beginExchange (i : Nat) (x : Exchange) (s : State) : State :=
  (s.modRec i fun r => { r with link := .offering, exch := some x, holdoff := none, initWait := none }).noteWork

/-- This station opens on a record as PROPOSER (R47). -/
def State.openOn (i : Nat) (s : State) : State :=
  let d := s.drawBelow 65536
  (d.2.beginExchange i (Exchange.fresh .proposer false d.1 (s.now + exchangeTime))).readyPage i 0

/-- A HEARD record is a candidate for pairing (R46). -/
def State.candidate (s : State) (r : Record) : Bool :=
  decide (r.link = .heard) && decide (s.station = .onAir) && decide (s.upCount < 12) && r.advert.room &&
    r.holdoff.isNone

/-- One record's candidacy assessed (R46): the lower address opens at once, the higher starts its initiation wait, and
a wait is discarded when the record is no candidate. -/
def State.assess (i : Nat) (s : State) : State :=
  match s.rec? i with
  | none => s
  | some r =>
    if s.candidate r then
      if s.cfg.address.toNat < r.peer.toNat then s.openOn i
      else if r.initWait.isNone then s.setSlot i (some { r with initWait := some (s.now + initiationTime) })
      else s
    else if r.initWait.isSome then s.setSlot i (some { r with initWait := none })
    else s

/-- Every slot's candidacy assessed, in slot order (R46). -/
def State.assessAll (s : State) : State := (List.range 24).foldl (fun s i => s.assess i) s

/-! ## Pages received (R45, R49 to R57, R61) -/

/-- The page of an ANSWERER or PROPOSER OPEN applied (R45, R49): the peer's OPEN, page 0 as last page, its term count
as pages expected. -/
def Exchange.applyOpen (nonce : Word16) (rateCap : Nat) (reflect : Bool) (terms : Nat) (x : Exchange) : Exchange :=
  { x with peer := some { nonce := nonce, rateCap := rateCap, reflect := reflect }, lastPage := some 0,
           expected := terms }

/-- A TERM page applied (R45): its term by kind, clamped to the accepted range; other kinds ignored. -/
def Exchange.applyTerm (number kind value : Nat) (x : Exchange) : Exchange :=
  { x with maxPayload := if kind = 1 then some (clampTo 64 1024 value) else x.maxPayload,
           pace := if kind = 2 then some (min 1000 value) else x.pace,
           lastPage := some number, expected := x.expected - 1 }

/-- A HEARD record, or an ANSWERER whose peer begins afresh, answers a PROPOSER OPEN (R50): OFFERING as ANSWERER with
the OPEN applied, and its own OPEN ready at once when no TERM page is expected (R51). -/
def State.answer (i : Nat) (nonce : Word16) (rateCap : Nat) (reflect : Bool) (terms : Nat) (s : State) : State :=
  let d := s.drawBelow 65536
  let x := (Exchange.fresh .answerer false d.1 (s.now + exchangeTime)).applyOpen nonce rateCap reflect terms
  let s1 := d.2.beginExchange i { x with phase := .awaitingPages }
  if terms = 0 then s1.readyPage i 0 else s1

/-- A PROPOSER OPEN with 12 UP is refused through a refusing exchange, its OPEN ready at once (R56). R56 lists no value
for the pages still expected and the peer terms: DESIGN CHOICE, 0 and what the OPEN carries (log 40). -/
def State.refuse (i : Nat) (nonce : Word16) (rateCap : Nat) (reflect : Bool) (s : State) : State :=
  let d := s.drawBelow 65536
  let x := (Exchange.fresh .answerer true d.1 (s.now + exchangeTime)).applyOpen nonce rateCap reflect 0
  (d.2.beginExchange i x).readyPage i 0

/-- A PROPOSER OPEN is answered while fewer than 12 are UP, refused otherwise (R50, R56). -/
def State.answerOrRefuse (i : Nat) (nonce : Word16) (rateCap : Nat) (reflect : Bool) (terms : Nat) (s : State) : State :=
  if s.upCount < 12 then s.answer i nonce rateCap reflect terms else s.refuse i nonce rateCap reflect

/-- After a peer page has been applied: with nothing more expected a PROPOSER asks for UP and an ANSWERER makes its
OPEN ready (R51, R52). -/
def State.pagesApplied (i : Nat) (x : Exchange) (s : State) : State :=
  if x.expected = 0 then
    match x.role with
    | .proposer => s.requestUp i
    | .answerer => s.readyPage i 0
  else s

/-- The exchange part of a slot replaced, with its timer restarted, and the next step of the exchange taken (R58). -/
def State.progress (i : Nat) (x : Exchange) (s : State) : State :=
  (s.modExch i fun _ => { x with timer := s.now + exchangeTime }).pagesApplied i x

/-- What the Offer Engine does with a well-formed page: the state after, and whether ACCEPTED is asked for (R49). -/
def State.takePage (i : Nat) (page : OfferPage) (s : State) : State × Bool :=
  match s.rec? i with
  | none => (s, false)
  | some r =>
    match r.link, r.exch, page with
    | .heard, _, .opening .proposer _ nonce cap refl terms => (s.answerOrRefuse i nonce cap refl terms, true)
    | .heard, _, _ => (s, false)
    | .up, _, .opening .proposer _ _ _ _ _ => (s, false)
    | .up, _, _ => (s, true)
    | .offering, some x, .term number kind value => offeringTerm x number kind value
    | .offering, some x, .opening role refuse nonce cap refl terms => offeringOpen x role refuse nonce cap refl terms
    | _, _, _ => (s, false)
where
  /-- A TERM page in OFFERING: a repeat, a page for a refusing ANSWERER (R56), the page expected next, or another. -/
  offeringTerm (x : Exchange) (number kind value : Nat) : State × Bool :=
    if x.lastPage = some number then (s, true)
    else if x.refusing then (s, true)
    else if x.phase = .awaitingPages ∧ 0 < x.expected ∧ x.lastPage = some (number - 1) then
      (s.progress i (x.applyTerm number kind value), true)
    else (s, false)
  /-- An OPEN in OFFERING: a repeat (R49), a refusal (R57), the ANSWERER OPEN expected or met while still sending
  (R49, R52), crossing OPENs (R53 to R55), or a peer that has begun afresh, which a nonce other than the peer nonce
  tells (R61). A PROPOSER OPEN of the peer nonce after a TERM page has been applied is another page (R49). -/
  offeringOpen (x : Exchange) (role : Role) (refuse : Bool) (nonce : Word16) (cap : Nat) (refl : Bool) (terms : Nat) :
      State × Bool :=
    if x.lastPage = some 0 ∧ x.peer.map PeerOpen.nonce = some nonce then (s, true)
    else
      match x.role, role with
      | .proposer, .answerer =>
        if refuse then (s.toHeard i .refused offerHoldoff, true)
        else if x.phase = .sendingPages ∨ x.peer = none then
          (s.progress i { (x.applyOpen nonce cap refl terms) with phase := .awaitingPages, page := none }, true)
        else (s, false)
      | .proposer, .proposer =>
        if nonce.toNat < x.ownNonce.toNat then (s, false)
        else if x.ownNonce.toNat < nonce.toNat then
          (s.progress i { (x.applyOpen nonce cap refl terms) with
                            role := .answerer, phase := .awaitingPages, page := none, nextPage := 0 }, true)
        else ((s.drawBelow 1001).2.toHeard i .tie (ms (s.drawBelow 1001).1), false)
      | .answerer, .proposer =>
        if x.peer.map PeerOpen.nonce = some nonce then (s, false)
        else (s.answerOrRefuse i nonce cap refl terms, true)
      | .answerer, .answerer => (s, false)

/-! ## Own pages returned (R48, R51, R56) -/

/-- The pending page of a slot, if it is the one of the identity. -/
def State.pendingPage (s : State) (i id : Nat) : Option (Record × Exchange × Page) :=
  match s.rec? i with
  | none => none
  | some r =>
    match r.exch with
    | none => none
    | some x =>
      match x.page with
      | some p => if p.id = id then some (r, x, p) else none
      | none => none

/-- An own page is returned as acknowledged (R48): the next is made ready, or the phase moves on, or the exchange
completes, or a refusal ends (R51, R56). A page no longer pending is disregarded. -/
def State.pageAcked (i id : Nat) (s : State) : State :=
  match s.pendingPage i id with
  | none => s
  | some (_, x, p) =>
    let s1 := s.modExch i fun x => { x with page := none, nextPage := p.number + 1, timer := s.now + exchangeTime }
    if p.number + 1 ≤ x.ownCount then s1.readyPage i (p.number + 1)
    else
      match x.role with
      | .proposer => s1.modExch i fun x => { x with phase := .awaitingPages }
      | .answerer => if x.refusing then s1.toHeard i .refused offerHoldoff else s1.requestUp i

/-- The exchange of a slot fails by timeout or exhaustion: REFUSED for a refusing one, TIMEOUT otherwise, and a holdoff
of 10 s (R48, R56, R58). -/
def State.failExchange (i : Nat) (s : State) : State :=
  match s.rec? i with
  | none => s
  | some r =>
    match r.exch with
    | none => s
    | some x => s.toHeard i (if x.refusing then .refused else .timeout) offerHoldoff

/-- An own page has reached retry exhaustion (R48). A page no longer pending is disregarded. -/
def State.pageExhausted (i id : Nat) (s : State) : State :=
  match s.pendingPage i id with
  | none => s
  | some _ => s.failExchange i

/-! ## Admission (R26 to R28) -/

/-- The advertisement of a record admitted by OFFER (R27). -/
def Advert.byOffer : Advert :=
  { cost := 4095, nextHop := 0, mode := .active, window := 25, gateway := false, room := true }

/-- A newly admitted record (R27); its F and L are set by the admitting frame's measurement (R66). -/
def Record.admitted (c : Settings) (peer : Addr) (nowMs m : Nat) (a : Advert) : Record :=
  Record.costed c
    { peer := peer, link := .heard, lastHeard := nowMs, silence := 0, advert := a, windowEnd := none, F := 16 * m,
      L := 16 * m, fade := Fade.none,
      trim := { echo := none, step := 31, state := .idle, count := 0, timer := none, clamped := false, last := none,
                rUsed := 0 },
      notEchoed := 0, terms := none, linkCost := 0, pathCost := 0, eligible := false, exch := none, holdoff := none,
      initWait := none, failStreak := 0, hopDrops := 0, loopDrops := 0, pathDrops := 0 }

/-- The record to evict: among HEARD and LOST the oldest last-heard time, the lower slot at equal times (R28). -/
def evictFrom : List (Option Record) → Nat → Option (Nat × Nat) → Option (Nat × Nat)
  | [], _, best => best
  | none :: rest, i, best => evictFrom rest (i + 1) best
  | some r :: rest, i, best =>
    if r.link = .heard ∨ r.link = .lost then
      match best with
      | some b => evictFrom rest (i + 1) (if r.lastHeard < b.2 then some (i, r.lastHeard) else some b)
      | none => evictFrom rest (i + 1) (some (i, r.lastHeard))
    else evictFrom rest (i + 1) best

/-- The slot a newcomer takes: the lowest empty one, or that of the evicted record, with the state after any eviction;
none when every record is OFFERING or UP (R25, R28). -/
def State.makeRoom (s : State) : State × Option Nat :=
  match s.emptySlot with
  | some i => (s, some i)
  | none =>
    match evictFrom s.slots 0 none with
    | some b => (s.removeRecord b.1 .evicted, some b.1)
    | none => (s, none)

/-- A frame that passes R26 admits its sender in HEARD, with the report ADMITTED; a full table of OFFERING and UP
records ignores it (R28). -/
def State.admitPeer (peer : Addr) (m : Nat) (a : Advert) (s : State) : State × Option Nat :=
  match s.makeRoom with
  | (s1, none) => (s1, none)
  | (s1, some i) =>
    (((s1.setSlot i (some (Record.admitted s1.cfg peer s1.nowMs m a))).putReport peer (some i)
      (.neighbour .admitted .none (some .heard))).noteWork, some i)

/-- A frame from a known sender refreshes its record, and returns it from LOST to HEARD (R29, R30). The flag tells the
Margin Tracker to seed (R66). -/
def State.refresh (i : Nat) (s : State) : State × Bool :=
  match s.rec? i with
  | none => (s, false)
  | some r =>
    let after := { r with lastHeard := s.nowMs, silence := 0 }
    if r.link = .lost then
      (((s.setSlot i (some { after with link := .heard, failStreak := 0, notEchoed := 0 })).putReport r.peer (some i)
        (.neighbour .heard .none (some .heard))).noteWork, true)
    else (s.setSlot i (some after), false)

end Sys2Proof.Machine
end

