-- ==== Sys2Proof/Machine/AirOps.lean ====
section
/-! DEFINITION. The Air Sender's shared operations (R2, R14 to R23), the Duty Controller's (R140, R144), the Link
Checker's probes (R151, R154, R155), and what ends every command: the sender's choice, the receiver's listening, the
contention and the attention line. -/

namespace Sys2Proof.Machine

/-! ## Duty Controller (R140, R144, R148) -/

/-- A timer of a setting in seconds, 0 meaning never (R141). -/
def dutyTimer (now setting : Nat) : Option Nat := if setting = 0 then none else some (now + secs setting)

/-- A DUTY report for a change of mode (R148). -/
def State.dutyReport (mode previous : DutyMode) (woken : Bool) (s : State) : State :=
  s.putReport 0 none (.duty mode previous woken)

/-- An activity (R140, R145): ACTIVE, the step-down timer restarted; leaving DOZE ends its listening arrangement. Only
while ON AIR. -/
def State.activity (s : State) : State :=
  if s.station = .onAir then
    let woken : State :=
      { s with duty := { s.duty with mode := .active, stepDown := dutyTimer s.now s.cfg.tQuiet,
                                     listen := if s.duty.mode = .doze then .none else s.duty.listen,
                                     survey := if s.duty.mode = .doze then 0 else s.duty.survey } }
    if s.duty.mode = .active then woken else woken.dutyReport .active s.duty.mode true
  else s

/-- The end of an own beacon (R15, R144): in DOZE it opens a window or a survey. -/
def State.beaconEnded (s : State) : State :=
  if s.duty.mode = .doze then
    if s.cfg.nSurvey ≤ s.duty.survey + 1 then
      { s with duty := { s.duty with listen := .survey (s.now + ms 1600), survey := 0 } }
    else
      { s with duty := { s.duty with listen := .window (s.now + ms s.cfg.wListen), survey := s.duty.survey + 1 } }
  else s

/-! ## Link Checker (R151, R154, R155) -/

/-- A counter raised by `n` under the check's counter mode: the value after, and whether it has reached its largest
value in SATURATE (R155). -/
def raiseCounter (mode : CounterMode) (largest v n : Nat) : Nat × Bool :=
  match mode with
  | .saturate => (min largest (v + n), decide (largest ≤ v + n))
  | .wrap => ((v + n) % (largest + 1), false)

/-- The largest value of the 32-bit counters. -/
def largest32 : Nat := 4294967295
/-- The largest value of errored bits. -/
def largest16 : Nat := 65535

/-- The next probe is made ready while the count code allows (R151). -/
def State.readyProbe (s : State) : State :=
  match s.check.record with
  | none => s
  | some c =>
    if (match countLimit c.countCode with | some n => decide (c.next < n) | none => true) then
      { s with check := { s.check with state := .pending c.next s.serial s.now,
                                       record := some { c with next := (c.next + 1) % (largest32 + 1) } },
               serial := s.serial + 1, workAvailable := true }
    else s

/-- The check pace of the record under check, in ms (R151). -/
def State.checkPace (s : State) (c : CheckRecord) : Nat :=
  match s.rec? c.slot with
  | some r => match r.terms with | some t => t.pace | none => 0
  | none => 0

/-- After a probe is settled: the next at once when the pace has passed since the last probe end, otherwise PACING
(R151). -/
def State.nextProbe (s : State) : State :=
  match s.check.record with
  | none => s
  | some c =>
    match c.lastEnd with
    | none => s.readyProbe
    | some t =>
      if t + ms (s.checkPace c) ≤ s.now then s.readyProbe
      else { s with check := { s.check with state := .pacing (t + ms (s.checkPace c)) } }

/-- A probe is settled, its counters moved (R154): probes settled rises; a saturated counter ends the check
SATURATED, the full count ends it COUNT DONE (log 17), otherwise the next probe follows. -/
def State.probeSettled (saturated : Bool) (s : State) : State :=
  match s.check.record with
  | none => s
  | some c =>
    let settled := (c.settled + 1) % (largest16 + 1)
    let s1 : State := { s with check := { s.check with record := some { c with settled := settled } } }
    if saturated then s1.endCheck .saturated
    else if countLimit c.countCode = some settled then s1.endCheck .countDone
    else s1.nextProbe

/-- The live counters after a REFLECT that differs in `n` bits, and whether one has saturated (R154, R155). -/
def Counters.reflected (mode : CounterMode) (n : Nat) (v : Counters) : Counters × Bool :=
  let ret := raiseCounter mode largest32 v.returned 1
  let err := if 0 < n then raiseCounter mode largest32 v.errored 1 else (v.errored, false)
  let bits := if 0 < n then raiseCounter mode largest16 v.bits n else (v.bits, false)
  ({ v with returned := ret.1, errored := err.1, bits := bits.1,
            overflow := if mode = .wrap ∧ largest16 < v.bits + n then min 255 (v.overflow + 1) else v.overflow },
   ret.2 || err.2 || bits.2)

/-- A kept REFLECT with a good payload check (R154): it settles the OUTSTANDING probe of its number when it comes from
the peer under check, and is disregarded otherwise. `body` has its check removed. -/
def State.takeReflect (src : Addr) (body : List Byte) (s : State) : State :=
  match s.check.state, s.check.record with
  | .outstanding number _, some c =>
    if 4 ≤ body.length ∧ c.peer = src ∧ natBE (body.take 4) = number then
      let counted := s.check.live.reflected c.mode (differingBits (body.drop 4) (patternBytes c number))
      State.probeSettled counted.2 { s with check := { s.check with live := counted.1 } }
    else s
  | _, _ => s

/-- A PROBE kept with a good payload check (R153): copied into the free reflect buffer for an UP prober, when this
station reflects. -/
def State.takeProbe (i : Nat) (src : Addr) (body : List Byte) (s : State) : State :=
  if 4 ≤ body.length ∧ isUp (s.rec? i) = true ∧ s.cfg.reflect = true ∧ s.tx.reflect = none then
    { s with tx := { s.tx with reflect := some { id := s.serial, prober := src, body := body, ready := s.now } },
             serial := s.serial + 1, workAvailable := true }
  else s

/-- The Air Sender returns a probe as sent (R151, R155). One whose check has ended is disregarded (R157). -/
def State.probeSent (id : Nat) (s : State) : State :=
  match s.check.state, s.check.record with
  | .pending number pid _, some c =>
    if pid = id then
      let sent := raiseCounter c.mode largest32 s.check.live.sent 1
      let s1 : State :=
        { s with check := { s.check with state := .outstanding number (s.now + ms 50),
                                         record := some { c with lastEnd := some s.now },
                                         live := { s.check.live with sent := sent.1 } } }
      if sent.2 then s1.endCheck .saturated else s1
    else s
  | _, _ => s

/-! ## The frame on air (R2, R15) -/

/-- F/16 truncated, the echo of a record (R71). -/
def Record.echo (r : Record) : Nat := (Int.tdiv r.F 16).toNat

/-- The echo list of this station's beacon: one entry per UP record in slot order (R15). -/
def echoList (slots : List (Option Record)) : List EchoEntry :=
  slots.filterMap fun o =>
    match o with
    | some r => if r.link = .up then some { peer := r.peer, margin := r.echo } else none
    | none => none

/-- This station's advertisement, as a beacon carries it (R15). -/
def State.ownAdvert (s : State) : Advert :=
  { cost := s.advCost, nextHop := hopAddr s.nextHop, mode := s.duty.mode, window := s.cfg.wListen,
    gateway := s.cfg.gateway, room := decide (s.upCount < 12) }

/-- A frame with its header's length field and payload check filled (R2, R170). -/
def frameOf (h : Header) (body : List Byte) : AirFrame :=
  { header := Header.encode { h with len := (withCheck body).length }, body := withCheck body }

/-- The header fields of a frame toward a record (R2). -/
def State.headerTo (s : State) (kind : FrameKind) (r : Record) (step cls : Nat) : Header :=
  { kind := kind, full := false, dest := r.peer, src := s.cfg.address, step := step, cls := cls, len := 0,
    echo := r.echo }

/-- What a chosen frame is when its transmission begins, if it may still be sent (R19): the addressee (none for a
beacon), the body rate class, the frame as filled from the state now (R2, R15), and the attempt count it carries. -/
structure Launch where
  addressee : Option Addr
  cls       : Nat
  frame     : AirFrame
  attempt   : Nat
  deriving DecidableEq, Repr

/-- The due beacon's launch (R2, R15). -/
def State.launchBeacon (s : State) : Launch :=
  { addressee := none, cls := 0, attempt := 0,
    frame := frameOf { kind := .beacon, full := false, dest := broadcast, src := s.cfg.address, step := 31, cls := 0,
                       len := 0, echo := 0 } (beaconBody s.ownAdvert (echoList s.slots)) }

/-- A page's launch: step 31, class 0 (R2). -/
def State.launchPage (s : State) (i id : Nat) : Option Launch :=
  match s.pendingPage i id with
  | some (r, _, p) =>
    if r.listening then
      some { addressee := some r.peer, cls := 0, frame := frameOf (s.headerTo .offer r 31 0) p.bytes,
             attempt := p.attempts + 1 }
    else none
  | none => none

/-- The record a probe or REFLECT goes to, while it is UP and listening. -/
def State.sendable (s : State) (peer : Addr) : Option Record :=
  match s.recOf peer with
  | some r => if decide (r.link = .up) && r.listening then some r else none
  | none => none

/-- The probe's launch (R2, R151). -/
def State.launchProbe (s : State) (id : Nat) : Option Launch :=
  match s.check.state, s.check.record with
  | .pending number pid _, some c =>
    if pid = id then
      (s.sendable c.peer).map fun r =>
        { addressee := some r.peer, cls := r.trim.rUsed, attempt := 0,
          frame := frameOf (s.headerTo .probe r r.trim.step r.trim.rUsed) (probeBody c number) }
    else none
  | _, _ => none

/-- The REFLECT's launch (R2, R153). -/
def State.launchReflect (s : State) (id : Nat) : Option Launch :=
  match s.tx.reflect with
  | some b =>
    if b.id = id then
      (s.sendable b.prober).map fun r =>
        { addressee := some r.peer, cls := r.trim.rUsed, attempt := 0,
          frame := frameOf (s.headerTo .reflect r r.trim.step r.trim.rUsed) b.body }
    else none
  | none => none

/-- The DATA body an entry is sent with (12_formats). -/
def Entry.body (e : Entry) : List Byte :=
  DataBody.encode { origin := e.origin, dest := e.dest, seq := e.seq, hop := e.hop, payload := e.payload }

/-- The payload fits the link maximum payload of a record (R17, R19). -/
def fits (r : Record) (e : Entry) : Bool :=
  match r.terms with
  | some t => decide (e.payload.length ≤ t.maxPayload)
  | none => false

/-- A DATA frame's launch: still queued, still resolved to the same neighbour, fitting, and the neighbour listening
(R19). -/
def State.launchData (s : State) (id : Nat) (peer : Addr) : Option Launch :=
  match s.entry? id with
  | none => none
  | some e =>
    match (s.resolve e.dest).bind s.rec? with
    | none => none
    | some r =>
      if decide (r.peer = peer) && fits r e && r.listening then
        some { addressee := some r.peer, cls := r.trim.rUsed,
               frame := frameOf (s.headerTo .data r r.trim.step r.trim.rUsed) e.body, attempt := e.attempts + 1 }
      else none

/-- The final check of R19 on a chosen frame. -/
def State.launch (s : State) : Chosen → Option Launch
  | .beacon => some s.launchBeacon
  | .page i id => s.launchPage i id
  | .probe id => s.launchProbe id
  | .reflect id => s.launchReflect id
  | .data id peer => s.launchData id peer

/-- The owner's attempt count raised at the start of an acknowledgeable attempt (R19). -/
def State.countAttempt (c : Chosen) (s : State) : State :=
  match c with
  | .page i _ => s.modExch i fun x => { x with page := x.page.map fun p => { p with attempts := p.attempts + 1 } }
  | .data id _ =>
    { s with fwd := s.fwd.map fun (e : Entry) => if e.id = id then { e with attempts := e.attempts + 1 } else e }
  | _ => s

/-- The receiver when the transmitter begins sending: OFF from any state, the frame under way lost (R3, R5). -/
def Receiver.silenced (r : Receiver) : Receiver := { r with state := .off, frame := none }

/-- The sender enters SENDING with a launched frame (R19, R20). -/
def State.beginSending (c : Chosen) (l : Launch) (s : State) : State :=
  let s1 := s.countAttempt c
  { s1 with
    rx := s1.rx.silenced
    tx := { s1.tx with state := .sending, chosen := some c, addressee := l.addressee, attempt := l.attempt, count := none,
                       guard := none, slotEnd := none, air := some l.frame,
                       ends := some (s1.now + airtime l.cls l.frame.body.length) } }

/-- The sender enters IDLE with no frame in flight; it will choose again (R14, R19, R23). -/
def State.senderIdle (s : State) : State :=
  { s with workAvailable := true,
           tx := { s.tx with state := .idle, chosen := none, addressee := none, attempt := 0, count := none, guard := none,
                             slotEnd := none, ends := none, ackWait := none, air := none } }

/-- The backoff ends (R19): the final check, then SENDING, or the choice is abandoned. -/
def State.backoffEnds (s : State) : State :=
  match s.tx.chosen with
  | none => s.senderIdle
  | some c =>
    match s.launch c with
    | some l => s.beginSending c l
    | none => s.senderIdle

/-! ## The choice (R14 to R18, R129, R130) -/

/-- A pending control frame: its ready time, its rank at equal times (pages by slot, then the probe, then the REFLECT,
R16), and what it is. -/
structure ControlFrame where
  ready  : Nat
  rank   : Nat
  chosen : Chosen
  deriving DecidableEq, Repr

/-- The pending pages of the slots from number `i` on whose peers are listening. -/
def pagesFrom : List (Option Record) → Nat → List ControlFrame
  | [], _ => []
  | none :: rest, i => pagesFrom rest (i + 1)
  | some r :: rest, i =>
    match r.exch with
    | none => pagesFrom rest (i + 1)
    | some x =>
      match x.page with
      | none => pagesFrom rest (i + 1)
      | some p =>
        if r.listening then { ready := p.ready, rank := i, chosen := .page i p.id } :: pagesFrom rest (i + 1)
        else pagesFrom rest (i + 1)

/-- The probe that may be sent now, if one is pending. -/
def State.probeFrame (s : State) : List ControlFrame :=
  match s.check.state, s.check.record with
  | .pending _ id ready, some c =>
    if (s.sendable c.peer).isSome then [{ ready := ready, rank := 24, chosen := .probe id }] else []
  | _, _ => []

/-- The REFLECT that may be sent now, if one is pending. -/
def State.reflectFrame (s : State) : List ControlFrame :=
  match s.tx.reflect with
  | some b => if (s.sendable b.prober).isSome then [{ ready := b.ready, rank := 25, chosen := .reflect b.id }] else []
  | none => []

/-- The control frames that may be sent now (R14, R16). -/
def State.controlFrames (s : State) : List ControlFrame := pagesFrom s.slots 0 ++ s.probeFrame ++ s.reflectFrame

/-- The earlier of two control frames; the lower rank at equal ready times (R16). -/
def ControlFrame.before (a b : ControlFrame) : Bool :=
  decide (a.ready < b.ready) || (decide (a.ready = b.ready) && decide (a.rank < b.rank))

/-- The oldest of a list of control frames (R16). -/
def oldestControl : List ControlFrame → Option ControlFrame
  | [] => none
  | f :: fs =>
    match oldestControl fs with
    | none => some f
    | some g => if g.before f then some g else some f

/-- What an examination finds of a queued frame (R17, R129). -/
inductive Examined where
  | send (peer : Addr) | tooLong | waiting
  deriving DecidableEq, Repr

/-- A queued frame examined: unresolved, too long for its neighbour, its neighbour not listening, or sendable, tested
in that order (R17). -/
def State.examine (s : State) (e : Entry) : Examined :=
  match (s.resolve e.dest).bind s.rec? with
  | none => .waiting
  | some r => if !fits r e then .tooLong else if r.listening then .send r.peer else .waiting

/-- The forward queue examined oldest first (R17): frames too long are dropped, waiting frames past T_wait are dropped
NO PATH (R129), and the first sendable one is chosen. -/
def scanQueue : List Entry → State → State × Option Chosen
  | [], s => (s, none)
  | e :: es, s =>
    match s.examine e with
    | .send peer => (s, some (.data e.id peer))
    | .tooLong => scanQueue es (s.dropEntry e.id .tooLong)
    | .waiting => scanQueue es (if s.pastWait e then s.dropEntry e.id .noPath else s)

/-- The sender enters DEFER with a newly chosen frame and draws its backoff count from 0 to cw − 1 (R18). -/
def State.enterDefer (c : Chosen) (s : State) : State :=
  let d := s.drawBelow s.tx.cw
  { d.2 with tx := { d.2.tx with state := .defer, chosen := some c, count := some d.1, guard := none, slotEnd := none } }

/-- The choice of R14: the due beacon, else the oldest control frame that may be sent now, else the oldest DATA frame
that may be sent now; with none, the sender stays IDLE. -/
def State.choose (s : State) : State :=
  if s.tx.beaconDue then s.enterDefer .beacon
  else
    match oldestControl s.controlFrames with
    | some f => s.enterDefer f.chosen
    | none =>
      match scanQueue s.fwd s with
      | (s1, some c) => s1.enterDefer c
      | (s1, none) => s1

/-- The sender is free to choose: IDLE, ON AIR, no own ACK on air (R14, R21). -/
def State.mayChoose (s : State) : Bool :=
  decide (s.tx.state = .idle) && decide (s.station = .onAir) && s.tx.ackAir.isNone

/-! ## Settling an attempt (R23) -/

/-- The contention window doubled, capped at 256 (R23). -/
def doubledWindow (cw : Nat) : Nat := min 256 (2 * cw)

/-- The attempt count of the frame in flight has reached R_max + 1 (R23). -/
def State.exhausted (s : State) : Bool := decide (s.cfg.rMax + 1 ≤ s.tx.attempt)

/-- The contention window after an outcome (R23). -/
def State.windowAfter (s : State) (o : AttemptOutcome) : Nat :=
  if o = .accepted ∨ s.exhausted = true then 16 else doubledWindow s.tx.cw

/-- The frame in flight returned to its owner with an outcome (R23, R128, R48). A NO ACK exhaustion of a DATA frame is
reported against the addressee after the drop (log 14). -/
def State.returnFrame (o : AttemptOutcome) (s : State) : State :=
  match s.tx.chosen, o with
  | some (.data id _), .accepted => s.releaseEntry id
  | some (.data id _), .full => if s.exhausted then s.dropEntry id .fullAtPeer else s
  | some (.data id peer), .noAck =>
    if s.exhausted then (s.dropEntry id .noAck).noAckExhausted (s.tx.addressee.getD peer) else s
  | some (.page i id), .accepted => s.pageAcked i id
  | some (.page i id), _ => if s.exhausted then s.pageExhausted i id else s
  | _, _ => s

/-- An acknowledgeable attempt is settled (R23): the frame to its owner, the contention window, the sender IDLE. -/
def State.settleAttempt (o : AttemptOutcome) (s : State) : State :=
  let s1 := s.returnFrame o
  State.senderIdle { s1 with tx := { s1.tx with cw := s.windowAfter o } }

/-! ## What ends every command -/

/-- The receiver follows the request to listen (R3): OFF to HUNT, taking a buffer (R13), and HUNT to OFF. -/
def State.syncReceiver (s : State) : State :=
  match s.rx.state with
  | .off =>
    if s.askedToListen && !s.transmitting then State.receiverTakes { s with rx := { s.rx with state := .hunt } } else s
  | .hunt => if s.askedToListen then s else { s with rx := { s.rx with state := .off } }
  | _ => s

/-- Contention follows the medium (R18): in DEFER the guard gap runs while the medium is sensed idle; in BACKOFF a busy
medium returns the sender to DEFER with its count. -/
def State.contend (s : State) : State :=
  match s.tx.state with
  | .defer =>
    if s.sensedIdle then
      if s.tx.guard = none then { s with tx := { s.tx with guard := some (s.now + guardGap) } } else s
    else { s with tx := { s.tx with guard := none } }
  | .backoff =>
    if s.sensedIdle then s else { s with tx := { s.tx with state := .defer, guard := none, slotEnd := none } }
  | _ => s

/-- The attention line follows its condition (R168). -/
def State.setAttention (s : State) : State := { s with attnLow := s.attention }

/-- The sender's choice, when it is free to choose and work has become available (R14). -/
def State.chooseIfWork (s : State) : State :=
  let s1 := if s.mayChoose && s.workAvailable then s.choose else s
  { s1 with workAvailable := false }

/-- What ends a command: the sender's choice, the receiver's listening, contention, the attention line. The DROP reports
of the choice (R17) join the queue after the command's own reports where no rule orders them: DESIGN CHOICE (log 46). -/
def State.finish (s : State) : State := s.chooseIfWork.syncReceiver.contend.setAttention

/-- What ends a command that can change a condition of candidacy: R46's assessment of every HEARD record first
(log 32). -/
def State.finishLinks (s : State) : State := s.assessAll.finish

end Sys2Proof.Machine
end

