-- ==== Sys2Proof/Machine/RelayOps.lean ====
section
/-! DEFINITION. What a frame from the air does to the part (R12): the observation, the bodies of the six kinds, the
Relay Unit's acceptance of DATA (R124 to R126), the seen list (R131) and the return path table (R132). -/

namespace Sys2Proof.Machine

/-! ## Seen list and return paths -/

/-- A pair inserted at the newest position; a repeat moves there, and a full list loses its oldest (R131). -/
def seenInsert (p : Addr × Word16) (l : List (Addr × Word16)) : List (Addr × Word16) :=
  let others := l.filter fun q => decide (q ≠ p)
  (if others.length < 32 then others else others.drop 1) ++ [p]

/-- `a` is replaced before `b`: older refresh time, or the lower via slot at the same time (R132). -/
def ReturnPath.older (a b : ReturnPath) : Bool :=
  decide (a.refresh < b.refresh) || (decide (a.refresh = b.refresh) && decide (a.via < b.via))

/-- The entry a full return path table gives up (R132). Of two with one refresh time and one via slot, which R132 does
not order, it is the one earlier in the list: DESIGN CHOICE (log 47). -/
def oldestPath : List ReturnPath → Option ReturnPath
  | [] => none
  | p :: ps =>
    match oldestPath ps with
    | none => some p
    | some q => if q.older p then some q else some p

/-- The return path to an origin learned through a slot at a moment in ms (R132). -/
def learnPath (origin : Addr) (via now : Nat) (l : List ReturnPath) : List ReturnPath :=
  let entry : ReturnPath := { dest := origin, via := via, refresh := now }
  if l.any fun p => decide (p.dest = origin) then l.map fun p => if p.dest = origin then entry else p
  else if l.length < 32 then l ++ [entry]
  else
    match oldestPath l with
    | some q => (l.erase q) ++ [entry]
    | none => [entry]

/-- The pair of an accepted frame is inserted and the return path to its origin learned (R125, R126). -/
def State.recordAccepted (i : Nat) (d : DataBody) (s : State) : State :=
  { s with seen := seenInsert (d.origin, d.seq) s.seen, paths := learnPath d.origin i s.nowMs s.paths,
           workAvailable := true }

/-- The receiver's buffer passes to the Relay Unit, and the receiver replaces it (R13). -/
def State.keepBuffer (s : State) : State := State.receiverTakes { s with rx := { s.rx with holds := false } }

/-! ## DATA (R124 to R126) -/

/-- Places of the forward queue taken: its entries, and the one a SEND in progress holds (R121, R126). -/
def State.placesTaken (s : State) : Nat := s.fwd.length + (if s.portHolds then 1 else 0)

/-- The identity pair of a frame is in the seen list (R124). -/
def State.hasSeen (s : State) (d : DataBody) : Bool := decide ((d.origin, d.seq) ∈ s.seen)

/-- A frame is for this station: its own address, or any gateway at a gateway station (R124). -/
def State.forHere (s : State) (d : DataBody) : Bool :=
  decide (d.dest = s.cfg.address) || (decide (d.dest = anyGateway) && s.cfg.gateway)

/-- Delivery (R125): the ring takes the frame, or FULL is asked for. -/
def State.deliver (i : Nat) (d : DataBody) (s : State) : State × Option Bool :=
  if s.ring.length < 12 then
    ((State.recordAccepted i d
        { s with ring := s.ring ++ [{ origin := d.origin, seq := d.seq, payload := d.payload }] }).keepBuffer, some false)
  else (s, some true)

/-- Relay (R126): the hop limit lowered; used up, accepted at the tail, or FULL asked for. -/
def State.relay (i : Nat) (d : DataBody) (s : State) : State × Option Bool :=
  if d.hop ≤ 1 then
    ({ s.modRec i fun r => { r with hopDrops := raise16 r.hopDrops } with
        seen := seenInsert (d.origin, d.seq) s.seen }, some false)
  else if s.placesTaken < 40 then
    ((State.recordAccepted i d
        { s with
          fwd := s.fwd ++ [{ id := s.serial, origin := d.origin, dest := d.dest, seq := d.seq, hop := d.hop - 1,
                             tag := none, attempts := 0, entered := s.nowMs, source := some i, payload := d.payload,
                             waitDue := true }],
          serial := s.serial + 1 }).keepBuffer, some false)
  else (s, some true)

/-- The Relay Unit takes a DATA body that passed its check (R124 to R126): the state after, and the ACK asked for:
none, ACCEPTED (`some false`) or FULL (`some true`). -/
def State.takeData (i : Nat) (body : List Byte) (s : State) : State × Option Bool :=
  if isUp (s.rec? i) then
    match parseData body with
    | none => (s, none)
    | some d =>
      if d.origin = s.cfg.address then
        (s.modRec i fun r => { r with loopDrops := raise16 r.loopDrops }, some false)
      else if s.hasSeen d then ({ s with seen := seenInsert (d.origin, d.seq) s.seen }, some false)
      else if s.forHere d then s.deliver i d
      else s.relay i d
  else (s, none)

/-! ## The end of a frame (R12) -/

/-- An ACK asked for (R21): owed after the short gap, unless the frame's destination was 0xFFE or 0xFFF. -/
def State.askAck (h : Header) (full : Bool) (s : State) : State :=
  if h.dest = anyGateway ∨ h.dest = broadcast then s
  else { s with tx := { s.tx with ackOwed := some { dest := h.src, full := full, due := s.now + shortGap } } }

/-- The Table acts on a frame (R26, R28 to R30): the sender's slot if it has a record afterwards, and whether the
measurement seeds. `welcome` is the advertisement with which the frame may admit its sender. -/
def State.hear (f : RxFrame) (welcome : Option Advert) (s : State) : State × Option (Nat × Bool) :=
  match s.findPeer f.header.src with
  | some i => ((s.refresh i).1, some (i, (s.refresh i).2))
  | none =>
    match welcome with
    | none => (s, none)
    | some a =>
      if s.cfg.floor ≤ normalise f.raw f.header.step then
        ((s.admitPeer f.header.src (normalise f.raw f.header.step) a).1,
         (s.admitPeer f.header.src (normalise f.raw f.header.step) a).2.map fun i => (i, true))
      else (s, none)

/-- The margin at which an echo list names this station, if it does (R35, R92). Of two entries that name it the first
counts: DESIGN CHOICE (log 41). -/
def listedMargin (own : Addr) (echoes : List EchoEntry) : Option Nat :=
  (echoes.find? fun e => decide (e.peer = own)).map EchoEntry.margin

/-- The echo of this station that a frame carries (R92): the margin listed in a beacon's good body, or the header's
echo field in a unicast kind addressed to this station, whatever became of the body. -/
def RxFrame.echoCarried (own : Addr) (body : List Byte) (f : RxFrame) : Option Nat :=
  if f.header.kind = .beacon then
    if f.store && checkPasses body then (parseBeacon body).bind fun b => listedMargin own b.2 else none
  else if f.header.dest = own then some f.header.echo
  else none

/-- A frame acts on its sender's record: the Table, then the echo it carries at the Trim Unit, then the measurement
(R12, R62, R92). The echo comes first of the two, which R94 leaves open: so a trigger at a change into CLEAR is assessed
with the new E. DESIGN CHOICE (log 37; for a beacon's list, log 42). -/
def State.observe (f : RxFrame) (welcome : Option Advert) (echo : Option Nat) (s : State) : State × Option Nat :=
  match s.hear f welcome with
  | (s1, none) => (s1, none)
  | (s1, some (i, seed)) =>
    let s2 := match echo with
      | some e => s1.takeEcho i e
      | none => s1
    (s2.measure i (normalise f.raw f.header.step) seed, some i)

/-- The advertisement of a record replaced (R31), its costs following (R110). A peer that was not listening and now is
makes work available (R14, log 31). -/
def State.replaceAdvert (i : Nat) (a : Advert) (s : State) : State :=
  match s.rec? i with
  | none => s
  | some r =>
    let s1 := (s.setSlot i (some { r with advert := a })).recost i
    if !r.listening && Record.listening { r with advert := a } then s1.noteWork else s1

/-- The not-echoed streak of an UP record after a good beacon (R35). -/
def State.countEchoed (i : Nat) (listed : Bool) (s : State) : State :=
  match s.rec? i with
  | none => s
  | some r =>
    if r.link = .up then
      if listed then s.setSlot i (some { r with notEchoed := 0 })
      else
        let s1 := s.setSlot i (some { r with notEchoed := r.notEchoed + 1 })
        if 3 ≤ r.notEchoed + 1 then s1.loseLink i .notEchoed else s1
    else s

/-- The peer window after a kept beacon (R146): opened by a record whose advertisement shows DOZE, absent otherwise. -/
def State.openPeerWindow (i : Nat) (s : State) : State :=
  match s.rec? i with
  | none => s
  | some r =>
    if r.advert.mode = .doze then
      (s.setSlot i (some { r with windowEnd := some (s.now + ms r.advert.window) })).noteWork
    else s.setSlot i (some { r with windowEnd := none })

/-- A good beacon body from a sender with a record (R31, R35); its echo was taken with the observation
(`State.observe`). -/
def State.takeBeacon (i : Nat) (a : Advert) (echoes : List EchoEntry) (s : State) : State :=
  (s.replaceAdvert i a).countEchoed i (listedMargin s.cfg.address echoes).isSome

/-- The failure streak of a sender with a record is reset by its kept ACK (R22, R34). -/
def State.clearStreak (slot : Option Nat) (s : State) : State :=
  match slot with
  | some i => s.modRec i fun r => { r with failStreak := 0 }
  | none => s

/-- A kept ACK (R22): the failure streak of a sender with a record is reset, and the awaited acknowledgement settles
the attempt. -/
def State.takeAck (h : Header) (slot : Option Nat) (s : State) : State :=
  if s.tx.state = .awaitAck ∧ s.tx.addressee = some h.src ∧ h.dest = s.cfg.address then
    (s.clearStreak slot).settleAttempt (if h.full then .full else .accepted)
  else s.clearStreak slot

/-- The body of a DATA frame (R9, R124): header-only is answered FULL by the receiver itself. -/
def State.dataBody (f : RxFrame) (slot : Option Nat) (body : List Byte) (s : State) : State :=
  if f.store then
    match slot with
    | some i =>
      if checkPasses body then
        match s.takeData i body with
        | (s1, some full) => s1.askAck f.header full
        | (s1, none) => s1
      else s
    | none => s
  else s.askAck f.header true

/-- The body of an OFFER (R49): a good, well-formed page goes to the Offer Engine, which may ask for ACCEPTED. -/
def State.offerBody (f : RxFrame) (slot : Option Nat) (body : List Byte) (s : State) : State :=
  match slot, parseOffer body with
  | some i, some page =>
    if f.store && checkPasses body then
      if (s.takePage i page).2 then (s.takePage i page).1.askAck f.header false else (s.takePage i page).1
    else s
  | _, _ => s

/-- The body of a kept frame handed to the block that owns its kind (R12). -/
def State.handBody (f : RxFrame) (slot : Option Nat) (body : List Byte) (s : State) : State :=
  match f.header.kind with
  | .beacon =>
    match slot with
    | none => s
    | some i =>
      State.openPeerWindow i
        (match parseBeacon body with
          | some (a, echoes) => if f.store && checkPasses body then s.takeBeacon i a echoes else s
          | none => s)
  | .data => s.dataBody f slot body
  | .ack => s.takeAck f.header slot
  | .offer => s.offerBody f slot body
  | .probe =>
    match slot with
    | some i => if f.store && checkPasses body then s.takeProbe i f.header.src (bodyBytes body) else s
    | none => s
  | .reflect => if f.store && checkPasses body then s.takeReflect f.header.src (bodyBytes body) else s

/-- The kinds whose kept end is activity (R140). -/
def FrameKind.active : FrameKind → Bool
  | .data => true | .offer => true | .probe => true | .reflect => true | .beacon => false | .ack => false

/-- With what advertisement a kept frame may admit an unknown sender: a beacon with its own, an OFFER with that of
R27, and only when the body was stored and is good (R26). -/
def admitsWith (f : RxFrame) (body : List Byte) : Option Advert :=
  if f.store && checkPasses body then
    match f.header.kind with
    | .beacon => (parseBeacon body).map Prod.fst
    | .offer => some Advert.byOffer
    | _ => none
  else none

/-- A kept frame ends (R9, R12): the observation with the echo, the activity, the body. -/
def State.keptFrameEnds (f : RxFrame) (body : List Byte) (s : State) : State :=
  let seen := s.observe f (admitsWith f body) (f.echoCarried s.cfg.address body)
  State.handBody f seen.2 body (if f.header.kind.active then seen.1.activity else seen.1)

end Sys2Proof.Machine
end

