-- ==== Sys2Proof/Machine/Port.lean ====
section
/-! DEFINITION. The Host Port's transaction (R159, R160): the shifting of bytes, the two judgements of a command, the
results, and the events that begin a transaction or end it without a command. -/

namespace Sys2Proof.Machine

/-- An event's effect, which a part held in reset does not have (R169). -/
def State.unlessReset (f : State → State) (s : State) : Host.Outcome State Fault Refusal :=
  .next (if s.inReset then s else f s)

/-! ## Arguments -/

/-- A two-byte argument at an offset. -/
def arg16 (args : List Byte) (i : Nat) : Nat := natLE ((args.drop i).take 2)

/-- SEND's stated length (12_formats). -/
def sendLength (args : List Byte) : Nat := arg16 args 4

/-- The payload bytes SEND still expects after its length field: none for a length of 0 or above 1,024 (R159). -/
def sendExpects (args : List Byte) : Nat :=
  if 1 ≤ sendLength args ∧ sendLength args ≤ 1024 then sendLength args else 0

/-! ## The judgement of a command (R160) -/

/-- The forward queue's host share: entries made by SEND (R119, R121). -/
def State.hostShare (s : State) : Nat := s.fwd.countP fun e => e.tag.isSome

/-- The Relay Unit refuses a SEND (R121). -/
def State.refusesSend (s : State) : Bool :=
  decide (s.free = 0) || decide (40 ≤ s.fwd.length) || decide (16 ≤ s.hostShare)

/-- SEND's destination is one R163 refuses. -/
def State.badDestination (s : State) (dest : Nat) : Bool :=
  decide (dest = 0) || decide (0xFFF ≤ dest) || decide (dest = s.cfg.address.toNat) ||
    (decide (dest = 0xFFE) && s.cfg.gateway)

/-- SEND judged when its length field is complete (R163). -/
def State.judgeSend (s : State) (args : List Byte) : Status :=
  if s.station ≠ .onAir then .wrongState
  else if s.badDestination (arg16 args 0) || decide (sendExpects args = 0) then .badArgument
  else if s.refusesSend then .full
  else .ok

/-- LOAD SETTINGS judged (R162). -/
def State.judgeLoad (s : State) (args : List Byte) : Status :=
  if s.station ≠ .unconfigured then .wrongState
  else if !settingsAcceptable args then .badArgument
  else if settingsHeld args = settingsTaken args then .ok
  else .clamped

/-- The number of reports TAKE REPORTS returns (R165). -/
def State.reportCount (s : State) (args : List Byte) : Nat := min (byteAt args 0) s.reports.length

/-- TAKE REPORTS judged (R165). -/
def State.judgeReports (s : State) (args : List Byte) : Status :=
  if byteAt args 0 < 1 ∨ 32 < byteAt args 0 then .badArgument
  else if s.reportCount args = 0 ∧ s.overrun = false then .empty
  else .ok

/-- RESEED judged (R73). -/
def State.judgeReseed (s : State) (args : List Byte) : Status :=
  if 23 < byteAt args 0 then .badArgument
  else
    match s.rec? (byteAt args 0) with
    | none => .noSuch
    | some r => if r.link = .heard ∨ r.link = .up then .ok else .wrongState

/-- FORGET judged (R39). -/
def State.judgeForget (s : State) (args : List Byte) : Status :=
  if 23 < byteAt args 0 then .badArgument
  else if (s.rec? (byteAt args 0)).isNone then .noSuch
  else .ok

/-- CHECK START's arguments are of the form R150 gives: slot, count code, length, pattern and counter mode codes. -/
def checkArgsOk (args : List Byte) : Bool :=
  decide (byteAt args 0 ≤ 23) && decide (byteAt args 1 ≤ 5) && decide (16 ≤ arg16 args 2) &&
    decide (arg16 args 2 ≤ 1024) && (Pattern.ofCode (byteAt args 4)).isSome &&
    (CounterMode.ofCode (byteAt args 6)).isSome

/-- CHECK START judged, its tests in order (R150). -/
def State.judgeCheck (s : State) (args : List Byte) : Status :=
  if !checkArgsOk args then .badArgument
  else if s.check.running then .busy
  else
    match s.rec? (byteAt args 0) with
    | none => .noSuch
    | some r =>
      match r.terms with
      | some t =>
        if r.link ≠ .up ∨ t.peerReflects = false then .wrongState
        else if t.maxPayload < arg16 args 2 then .badArgument
        else .ok
      | none => .wrongState

/-- A command judged against the state (R160, and each command's rule). -/
def State.judge (s : State) (code : Byte) (args : List Byte) : Status :=
  if code = 0x01 then s.judgeLoad args
  else if code = 0x02 then (if s.settings.isNone then .wrongState else .ok)
  else if code = 0x03 then (if s.station = .ready then .ok else .wrongState)
  else if code = 0x04 then (if s.station = .unconfigured then .wrongState else .ok)
  else if code = 0x10 then s.judgeSend args
  else if code = 0x11 then (if s.ring.isEmpty then .empty else .ok)
  else if code = 0x12 then s.judgeReports args
  else if code = 0x20 then
    (if 23 < byteAt args 0 ∨ byteAt args 1 < 1 ∨ 8 < byteAt args 1 then .badArgument else .ok)
  else if code = 0x30 then s.judgeReseed args
  else if code = 0x31 then s.judgeForget args
  else if code = 0x40 then s.judgeCheck args
  else if code = 0x42 then (if 1 < byteAt args 0 then .badArgument else .ok)
  else if (argCount code).isSome then .ok
  else .unknownCommand

/-! ## Results (R160, R163 to R166, 12_formats) -/

/-- The number of items in the result of a command answered OK. -/
def State.resultItems (s : State) (code : Byte) (args : List Byte) (st : Status) : Nat :=
  if st ≠ .ok then 0
  else if code = 0x02 ∨ code = 0x10 ∨ code = 0x11 ∨ code = 0x21 ∨ code = 0x43 then 1
  else if code = 0x12 then 1 + s.reportCount args
  else if code = 0x20 then byteAt args 1
  else 0

/-- The slot of row k of READ NEIGHBOURS: slot order from the start, wrapping in its group of 8 (R166). -/
def rowSlot (start k : Nat) : Nat := start / 8 * 8 + (start % 8 + k) % 8

/-- The 16 bytes of READ STATION (R166, 12_formats, R171). -/
def State.stationStatus (s : State) : List Byte :=
  [byteOf s.station.code, byteOf s.duty.mode.code] ++ le16 (hopAddr s.nextHop).toNat ++
  [slotByte (s.nextHop.map NextHop.slot)] ++ le16 s.advCost ++
  [byteOf s.fwd.length, byteOf s.hostShare, byteOf s.ring.length, byteOf s.free, byteOf s.upCount,
   byteOf s.reports.length, flagByte s.overrun] ++
  (match s.latest with | some (code, st) => [code, st.code] | none => [0x00, 0xFF])

/-- Item k of a result, formed from the state as it begins (R160). -/
def State.resultItem (s : State) (t : Transaction) (k : Nat) : List Byte :=
  if t.code = 0x02 then (match s.settings with | some c => c.form | none => [])
  else if t.code = 0x10 then le16 t.seqOut.toNat
  else if t.code = 0x11 then (match s.ring with | d :: _ => d.encode | [] => [])
  else if t.code = 0x12 then
    (if k = 0 then [flagByte t.marker, byteOf (t.total - 1)]
     else match s.reports[k - 1]? with | some r => r.encode | none => [])
  else if t.code = 0x20 then slotRow s.nowMs (s.rec? (rowSlot (byteAt t.args 0) k))
  else if t.code = 0x21 then s.stationStatus
  else s.check.readout

/-- What the port remembers of the report that item k copies (R165). -/
def State.snapOf (s : State) (t : Transaction) (k : Nat) : List Snap :=
  if t.code = 0x12 ∧ 0 < k then
    match s.reports[k - 1]? with
    | some r => [{ stamp := r.stamp, count := r.body.dropCount }]
    | none => []
  else []

/-- The items whose bytes have all been shifted out. -/
def Transaction.wholeItems (t : Transaction) : Nat := if t.out.isEmpty then t.begun else t.begun - 1

/-! ## Shifting (R159, R160) -/

/-- A transaction that has just begun (R159). -/
def Transaction.fresh : Transaction :=
  { phase := .command, code := 0, args := [], due := 0, status := none, statusOut := false, out := [], total := 0,
    begun := 0, snaps := [], marker := false, discardsAt := 0, sendHeld := false, seqOut := 0 }

/-- The arguments are complete: the status is formed and the RESULT phase opens (R160). The marker and the count of
TAKE REPORTS are formed with it (R165), and so is SEND's sequence (R163). -/
def Transaction.answered (t : Transaction) (st : Status) (s : State) : Transaction :=
  { t with phase := .result, status := some st, due := 0, total := s.resultItems t.code t.args st, marker := s.overrun,
           discardsAt := s.discards, seqOut := s.seqCounter }

/-- The next phase once a byte of the result has been shifted: SPENT when the result has all gone (R159). -/
def Transaction.advance (t : Transaction) : Transaction :=
  if t.out.isEmpty && decide (t.total ≤ t.begun) then { t with phase := .spent } else t

/-- The state with a transaction and the byte now on PDO. -/
def State.withPort (t : Transaction) (out : Byte) (s : State) : State := { s with port := some t, pdo := some out }

/-- The command byte completes (R159): unrecognised, without arguments, or with arguments to come. -/
def State.shiftCommand (data : Byte) (t : Transaction) (s : State) : State :=
  match argCount data with
  | none => s.withPort ({ t with code := data }.answered .unknownCommand s) 0
  | some 0 => s.withPort ({ t with code := data }.answered (s.judge data []) s) 0
  | some (n + 1) => s.withPort { t with code := data, phase := .arguments, due := n + 1 } 0

/-- SEND's length field is complete (R163): the SEND is judged; when it may go ahead it takes a buffer and its place
(R121); its payload is expected, or its status follows at once. -/
def State.sendLengthComplete (t : Transaction) (s : State) : State :=
  let st := s.judgeSend t.args
  let t1 := { t with status := some st, due := sendExpects t.args, sendHeld := decide (st = .ok) }
  let s1 : State := if st = .ok then { s with free := s.free - 1 } else s
  if sendExpects t.args = 0 then s1.withPort (t1.answered st s) 0 else s1.withPort t1 0

/-- An argument byte completes (R159, R160, R163): kept, but for the payload of a refused SEND, which is discarded. -/
def State.shiftArgument (data : Byte) (t : Transaction) (s : State) : State :=
  let payload := decide (t.code = 0x10) && t.status.isSome
  let t1 := { t with args := if payload && !t.sendHeld then t.args else t.args ++ [data], due := t.due - 1 }
  if 1 < t.due then s.withPort t1 0
  else if payload then s.withPort (t1.answered (t.status.getD .ok) s) 0
  else if t.code = 0x10 then s.sendLengthComplete t1
  else s.withPort (t1.answered (s.judge t.code t1.args) s) 0

/-- A byte of the RESULT phase (R159, R160): the status byte, then the items, each formed as its first byte goes. -/
def State.shiftResult (t : Transaction) (s : State) : State :=
  if !t.statusOut then s.withPort ({ t with statusOut := true }.advance) (t.status.getD .ok).code
  else
    match t.out with
    | b :: rest => s.withPort ({ t with out := rest }.advance) b
    | [] =>
      if t.begun < t.total then
        let item := s.resultItem t t.begun
        s.withPort ({ t with out := item.drop 1, begun := t.begun + 1, snaps := t.snaps ++ s.snapOf t t.begun }.advance)
          (item.getD 0 0)
      else s.withPort t.advance 0

/-- A byte completes on the port. Clocks with no transaction are disregarded (R159). -/
def State.shiftByte (data : Byte) (s : State) : State :=
  match s.port with
  | none => s
  | some t =>
    match t.phase with
    | .command => s.shiftCommand data t
    | .arguments => s.shiftArgument data t
    | .result => s.shiftResult t
    | .spent => s.withPort t 0

/-! ## The rise of select -/

/-- PSEL_N is high: no transaction, PDO high impedance (R159). -/
def State.closePort (s : State) : State := { s with port := none, pdo := none }

/-- The arguments are complete: the rise of select takes the command (R160). -/
def Transaction.complete (t : Transaction) : Bool := decide (t.phase = .result) || decide (t.phase = .spent)

/-- The rise of select takes the command of a code (R160): its effect on the state with the port closed, with the
status recorded. A rise that no such complete transaction precedes changes nothing (log 3). -/
def State.takeCommand (code : Byte) (effect : Transaction → State → Status × State) (s : State) : State :=
  match s.port with
  | none => s
  | some t =>
    if t.complete && decide (t.code = code) then
      { (effect t s.closePort).2 with latest := some (code, (effect t s.closePort).1) }
    else s

/-! ## Meanings -/

/-- TRANSACTION_BEGUN (R159): a fall of PSEL_N; one already in progress is left alone (log 3). -/
def execTransactionBegun (s : State) : Host.Outcome State Fault Refusal :=
  s.unlessReset fun s => if s.port.isNone then s.withPort Transaction.fresh 0 else s

/-- PORT_BYTE_SHIFTED (R159, R160). -/
def execPortByteShifted (data : Byte) (s : State) : Host.Outcome State Fault Refusal :=
  s.unlessReset fun s => s.shiftByte data

/-- TRANSACTION_CUT_SHORT (R160, R121): nothing is taken; a SEND gives back its buffer, and with it its place. -/
def execTransactionCutShort (s : State) : Host.Outcome State Fault Refusal :=
  s.unlessReset fun s =>
    match s.port with
    | none => s
    | some t =>
      if t.complete then s
      else (if t.sendHeld then s.closePort.returnBuffer else s.closePort).finish

/-- UNKNOWN_COMMAND (R159, R160): the rise after an unrecognised command byte; not taken, not recorded. -/
def execUnknownCommand (s : State) : Host.Outcome State Fault Refusal :=
  s.unlessReset fun s =>
    match s.port with
    | none => s
    | some t => if t.complete && (argCount t.code).isNone then s.closePort else s

end Sys2Proof.Machine
end

