-- ==== Sys2Proof/Machine/Commands.lean ====
section
/-! DEFINITION. The meanings of the three reset rows and of the host commands, each command at the rise of select
(R160): its second judgement, its status, its effect. -/

namespace Sys2Proof.Machine

/-! ## Resets (R169) -/

/-- The whole part reset with a cause (R169): the queue, the random stream and the carrier line stay (log 1, 5). -/
def State.resetWith (cause : ResetCause) (s : State) : State :=
  State.afterReset cause s.pending s.draws s.serial s.carrier

/-- The buffers of the air receiver and of a SEND in progress given up to the pool. -/
def State.looseBuffers (s : State) : Nat := (if s.rx.holds then 1 else 0) + (if s.portHolds then 1 else 0)

/-- POWER_ON (R169). -/
def execPowerOn (s : State) : Host.Outcome State Fault Refusal := .next (s.resetWith .power)

/-- RESET_LINE_ASSERTED (R169, R24, R160): the part enters reset; the air blocks stop, a transaction is abandoned,
ATTN_N is released. The rest takes its reset values at the completion (log 19). -/
def execResetLineAsserted (s : State) : Host.Outcome State Fault Refusal :=
  s.unlessReset fun s =>
    { s.closePort with inReset := true, attnLow := false, rx := Receiver.stopped, tx := Sender.stopped,
                       free := s.free + s.looseBuffers }

/-- RESET_LINE_RELEASED (R169): the reset is completed; with no reset under way the rise resets nothing. -/
def execResetLineReleased (s : State) : Host.Outcome State Fault Refusal :=
  .next (if s.inReset then s.resetWith .pin else s)

/-! ## Settings and station state (R161, R162) -/

/-- LOAD SETTINGS's effect (R162, R106): the record held, READY, and advertised cost 0 at a gateway. -/
def loadSettingsEffect (t : Transaction) (s : State) : Status × State :=
  let st := s.judgeLoad t.args
  if st = .ok ∨ st = .clamped then
    let c := Settings.ofValues (settingsHeld t.args)
    (st, { s with settings := some c, station := .ready, advCost := if c.gateway then 0 else s.advCost })
  else (st, s)

/-- LOAD_SETTINGS (R162). -/
def execLoadSettings (s : State) : Host.Outcome State Fault Refusal :=
  s.unlessReset (State.takeCommand 0x01 loadSettingsEffect)

/-- READ_SETTINGS (R162): the result has been shifted out; nothing changes. -/
def execReadSettings (s : State) : Host.Outcome State Fault Refusal :=
  s.unlessReset (State.takeCommand 0x02 fun t s => (s.judge 0x02 t.args, s))

/-- START's effect (R139, R161): ACQUIRING, mode ACTIVE, the acquisition timer at 1,600 ms, and listening. -/
def startEffect (_ : Transaction) (s : State) : Status × State :=
  if s.station = .ready then
    (.ok, State.finish
      { s with station := .acquiring,
               duty := { s.duty with mode := .active, acquisition := some (s.now + ms 1600) } })
  else (.wrongState, s)

/-- START (R139, R161). -/
def execStart (s : State) : Host.Outcome State Fault Refusal := s.unlessReset (State.takeCommand 0x03 startEffect)

/-- The DROP reports of the forward queue's drain, in queue order (R137, R135). -/
def drainReports : List Entry → State → State
  | [], s => s
  | e :: es, s => drainReports es (s.recordDrop e .stopped)

/-- STOP in ACQUIRING or ON AIR (R161): the drain's reports, then the check's end (R42; the order of these reports
is DEDUCED, log 25), then every block stopped: the air blocks (R24), the table (R42), the path (R106), the relay's
collections (R137), the duty controller (R138). -/
def State.stopAll (s : State) : State :=
  let s1 := (drainReports s.fwd s).endCheck .stationStopped
  { s1 with
    station := .ready
    free := s.free + s.fwd.length + (if s.rx.holds then 1 else 0)
    rx := Receiver.stopped, tx := Sender.stopped, slots := emptySlots, nextHop := none,
    advCost := if s.cfg.gateway then 0 else 4095
    fwd := [], seen := [], paths := [], workAvailable := false
    duty := { s.duty with stepDown := none, nextDue := none, listen := .none, survey := 0, acquisition := none } }

/-- STOP's effect (R161): refused in UNCONFIGURED, no effect in READY. -/
def stopEffect (_ : Transaction) (s : State) : Status × State :=
  match s.station with
  | .unconfigured => (.wrongState, s)
  | .ready => (.ok, s)
  | .acquiring => (.ok, s.stopAll.setAttention)
  | .onAir => (.ok, s.stopAll.setAttention)

/-- STOP (R161). -/
def execStop (s : State) : Host.Outcome State Fault Refusal := s.unlessReset (State.takeCommand 0x04 stopEffect)

/-- RESET (R169): taken in any station state; afterwards no latest command is recorded. -/
def execReset (s : State) : Host.Outcome State Fault Refusal :=
  s.unlessReset fun s =>
    match s.port with
    | none => s
    | some t => if t.complete && decide (t.code = 0x05) then s.resetWith .command else s

/-! ## Frames (R163, R164) -/

/-- The entry a SEND makes at the tail of the forward queue (R121). -/
def sendEntry (t : Transaction) (s : State) : Entry :=
  { id := s.serial, origin := s.cfg.address, dest := addrOf (arg16 t.args 0), seq := s.seqCounter, hop := s.cfg.hopLimit,
    tag := some (BitVec.ofNat 16 (arg16 t.args 2)), attempts := 0, entered := s.nowMs, source := none,
    payload := t.args.drop 6, waitDue := true }

/-- SEND's effect at the rise (R121, R122, R163): one that holds its buffer makes its entry, takes its sequence and is
activity (R140); a refused one has no effect and keeps its status. The activity's DUTY report comes before a DROP report
of the choice that ends the command: DESIGN CHOICE (log 46). -/
def sendEffect (t : Transaction) (s : State) : Status × State :=
  if t.sendHeld then
    (.ok, State.finish (State.activity
      { s with fwd := s.fwd ++ [sendEntry t s], serial := s.serial + 1, seqCounter := s.seqCounter + 1,
               workAvailable := true }))
  else (t.status.getD .wrongState, s)

/-- SEND (R163). -/
def execSend (s : State) : Host.Outcome State Fault Refusal := s.unlessReset (State.takeCommand 0x10 sendEffect)

/-- TAKE FRAME's effect at the rise (R164): the oldest entry leaves when all its bytes were shifted out. -/
def takeFrameEffect (t : Transaction) (s : State) : Status × State :=
  let st := s.judge 0x11 t.args
  match s.ring with
  | [] => (st, s)
  | _ :: rest => if 0 < t.wholeItems then (st, (State.returnBuffer { s with ring := rest }).finish) else (st, s)

/-- TAKE_FRAME (R164). -/
def execTakeFrame (s : State) : Host.Outcome State Fault Refusal :=
  s.unlessReset (State.takeCommand 0x11 takeFrameEffect)

/-! ## Reports and reading (R165, R166) -/

/-- A report that stays after it was read: a DROP report's count is reduced by the count the host read (R165). -/
def afterRead (n : Nat) (r : Report) : Report :=
  match r.body with
  | .drop count tag cause seq => { r with body := .drop (count - n) tag cause seq }
  | _ => r

/-- The queue at the rise: each report wholly shifted out leaves, unless overwritten since its snapshot (R165). -/
def removeTaken : List Snap → List Report → List Report
  | n :: ns, r :: rs => if n.stamp = r.stamp then removeTaken ns rs else afterRead n.count r :: removeTaken ns rs
  | _, rs => rs

/-- TAKE REPORTS's effect at the rise (R165): item 0 is the marker and count, the reports follow. -/
def takeReportsEffect (t : Transaction) (s : State) : Status × State :=
  (s.judgeReports t.args,
   State.setAttention
    { s with reports := removeTaken (t.snaps.take (t.wholeItems - 1)) s.reports,
             overrun := if markerShifted && decide (s.discards = t.discardsAt) then false else s.overrun })
where
  /-- The marker byte, first of the result, was shifted out. -/
  markerShifted : Bool := decide (0 < t.begun)

/-- TAKE_REPORTS (R165). -/
def execTakeReports (s : State) : Host.Outcome State Fault Refusal :=
  s.unlessReset (State.takeCommand 0x12 takeReportsEffect)

/-- READ_NEIGHBOURS (R166): the rows have been shifted out; nothing changes. -/
def execReadNeighbours (s : State) : Host.Outcome State Fault Refusal :=
  s.unlessReset (State.takeCommand 0x20 fun t s => (s.judge 0x20 t.args, s))

/-- READ_STATION (R166): the status has been shifted out; nothing changes. -/
def execReadStation (s : State) : Host.Outcome State Fault Refusal :=
  s.unlessReset (State.takeCommand 0x21 fun t s => (s.judge 0x21 t.args, s))

/-! ## Records (R39, R73) -/

/-- The duration a host RESEED reports: the time since the fade start, 0 when no fade is held (R88). -/
def reseedDuration (s : State) (r : Record) : Nat :=
  if r.fade.state.held then s.nowMs - r.fade.start.getD s.nowMs else 0

/-- RESEED's effect (R73 to R75). -/
def reseedEffect (t : Transaction) (s : State) : Status × State :=
  match s.judgeReseed t.args, s.rec? (byteAt t.args 0) with
  | .ok, some r => (.ok, (s.rebuildBaseline (byteAt t.args 0) .host (reseedDuration s r)).finish)
  | st, _ => (st, s)

/-- RESEED (R73). -/
def execReseed (s : State) : Host.Outcome State Fault Refusal := s.unlessReset (State.takeCommand 0x30 reseedEffect)

/-- FORGET's effect (R39). -/
def forgetEffect (t : Transaction) (s : State) : Status × State :=
  match s.judgeForget t.args with
  | .ok => (.ok, (s.removeRecord (byteAt t.args 0) .forgotten).finishLinks)
  | st => (st, s)

/-- FORGET (R39). -/
def execForget (s : State) : Host.Outcome State Fault Refusal := s.unlessReset (State.takeCommand 0x31 forgetEffect)

/-! ## Link check (R150, R156, R157) -/

/-- The check record a CHECK START makes (R150); the base is drawn by the caller. -/
def checkRecordOf (args : List Byte) (peer : Addr) (base : Nat) : CheckRecord :=
  { slot := byteAt args 0, peer := peer, countCode := byteAt args 1, length := arg16 args 2,
    pattern := (Pattern.ofCode (byteAt args 4)).getD .prbs, fixed := args.getD 5 0,
    mode := (CounterMode.ofCode (byteAt args 6)).getD .saturate, base := base, next := 0, settled := 0, lastEnd := none }

/-- CHECK START's effect (R150, R151): the record, the counters at 0, RUNNING, and the first probe ready. -/
def checkStartEffect (t : Transaction) (s : State) : Status × State :=
  match s.judgeCheck t.args, s.rec? (byteAt t.args 0) with
  | .ok, some r =>
    let d := s.drawBelow 32768
    (.ok, State.finish (State.readyProbe
      { d.2 with check := { d.2.check with record := some (checkRecordOf t.args r.peer d.1), live := Counters.zero } }))
  | st, _ => (st, s)

/-- CHECK_START (R150). -/
def execCheckStart (s : State) : Host.Outcome State Fault Refusal :=
  s.unlessReset (State.takeCommand 0x40 checkStartEffect)

/-- CHECK_STOP (R157): a running check ends STOPPED; while IDLE it has no effect. -/
def execCheckStop (s : State) : Host.Outcome State Fault Refusal :=
  s.unlessReset (State.takeCommand 0x41 fun _ s => (.ok, (s.endCheck .stopped).finish))

/-- The snapshot a CHECK FREEZE takes (R156); with no check record its slot byte is 0xFF (log 20). -/
def Checker.frozen (c : Checker) : Snapshot :=
  match c.record with
  | some k => { slot := k.slot, peer := k.peer, base := k.base, mode := k.mode, settled := k.settled, running := c.running,
                counters := c.live }
  | none => { slot := 0xFF, peer := 0, base := 0, mode := .saturate, settled := 0, running := c.running,
              counters := c.live }

/-- CHECK FREEZE's effect (R156). -/
def checkFreezeEffect (t : Transaction) (s : State) : Status × State :=
  if 1 < byteAt t.args 0 then (.badArgument, s)
  else
    (.ok, { s with check := { s.check with snapshot := s.check.frozen,
                                           live := if byteAt t.args 0 = 1 then Counters.zero else s.check.live } })

/-- CHECK_FREEZE (R156). -/
def execCheckFreeze (s : State) : Host.Outcome State Fault Refusal :=
  s.unlessReset (State.takeCommand 0x42 checkFreezeEffect)

/-- CHECK_READ (R156): the snapshot and end cause have been shifted out; neither changes. -/
def execCheckRead (s : State) : Host.Outcome State Fault Refusal :=
  s.unlessReset (State.takeCommand 0x43 fun _ s => (.ok, s))

end Sys2Proof.Machine
end

