-- ==== Sys2Proof/Machine/AirEvents.lean ====
section
/-! DEFINITION. The meanings of the air rows (01_the_air_channel): what the Air Receiver finds, and the gaps, slots,
ends and waits of the Air Sender. An event that cannot occur in the state it finds changes nothing (log 3); an expiry
has its effect at its deadline or after it (log 4). -/

namespace Sys2Proof.Machine

/-- A deadline that stands and has come. -/
def reached (deadline : Option Nat) (now : Nat) : Bool :=
  match deadline with
  | some t => decide (t ≤ now)
  | none => false

/-! ## The Air Receiver (R4 to R11) -/

/-- The frame under way ends with nothing handed on: HUNT, or OFF by what ends the command (R3, R5, R6, R10). -/
def State.dropFrame (s : State) : State := { s with rx := { s.rx with state := .hunt, frame := none } }

/-- The stated end of the frame under way is still to come. -/
def State.frameRunning (s : State) : Bool :=
  match s.rx.frame with
  | some f => decide (s.now < f.ends)
  | none => false

/-- The carrier's fall belongs to HEADER_ABANDONED or FRAME_TRUNCATED, not to MEDIUM_BUSY_CHANGE (log 10). -/
def State.fallEndsFrame (s : State) : Bool :=
  match s.rx.state with
  | .header => true
  | .body => s.frameRunning
  | .off => false | .hunt => false | .discard => false

/-- MEDIUM_BUSY_CHANGE (R4, R18; log 10): the carrier crosses the carrier-sense level; contention follows. The line is
the world's, so a part held in reset keeps it too. -/
def execMediumBusyChange (carrier : Bool) (s : State) : Host.Outcome State Fault Refusal :=
  .next
    (if s.inReset then { s with carrier := carrier }
     else if !carrier && s.fallEndsFrame then s
     else State.finish { s with carrier := carrier })

/-- SYNC_WORD_FOUND (R5, R13): in HUNT the receiver enters HEADER; the frame may use the buffer held now. -/
def execSyncWordFound (s : State) : Host.Outcome State Fault Refusal :=
  s.unlessReset fun s =>
    if s.rx.state = .hunt then State.finish { s with rx := { s.rx with state := .header, heldAtSync := s.rx.holds } }
    else s

/-- HEADER_ABANDONED (R5): the carrier falls in HEADER; the receiver enters HUNT. -/
def execHeaderAbandoned (s : State) : Host.Outcome State Fault Refusal :=
  s.unlessReset fun s =>
    if s.rx.state = .header then State.finish { s.dropFrame with carrier := false } else s

/-- The address filter (R7): the frame is kept. -/
def State.keeps (s : State) (h : Header) : Bool :=
  match h.kind with
  | .beacon => decide (h.dest = broadcast) && s.operating
  | .data | .ack | .offer | .probe | .reflect =>
    decide (s.station = .onAir) &&
      (decide (h.dest = s.cfg.address) || (decide (h.dest = anyGateway) && s.cfg.gateway))

/-- An accepted header takes the receiver into BODY or DISCARD (R6, R7, R9, R11); a kept body is stored in the buffer
held since the sync word, and followed header-only without one (R9, R13). -/
def State.acceptHeader (h : Header) (raw : Int) (s : State) : State :=
  let own := decide (h.src = s.cfg.address)
  let kept := !own && s.keeps h
  { s with rx := { s.rx with
      state := if kept then .body else .discard
      frame := some { header := h, raw := clampRaw raw, ends := s.now + bodyTime h.cls h.len,
                      store := kept && s.rx.holds && s.rx.heldAtSync, own := own } } }

/-- HEADER_RECEIVED (R6, R7, R8): the header is rejected into HUNT, or accepted into BODY or DISCARD. -/
def execHeaderReceived (header : List Byte) (raw : Int) (s : State) : Host.Outcome State Fault Refusal :=
  s.unlessReset fun s =>
    if s.rx.state = .header ∧ header.length = 10 then
      match Header.parse header with
      | none => s.dropFrame.finish
      | some h => (s.acceptHeader h raw).finish
    else s

/-- FRAME_END (R8, R9, R12): a kept frame of the stated length ends; the observation and the body are handed on. -/
def execFrameEnd (body : List Byte) (s : State) : Host.Outcome State Fault Refusal :=
  s.unlessReset fun s =>
    match s.rx.state, s.rx.frame with
    | .body, some f =>
      if f.ends ≤ s.now ∧ body.length = f.header.len then (s.dropFrame.keptFrameEnds f body).finishLinks else s
    | _, _ => s

/-- FRAME_TRUNCATED (R10): the carrier falls in BODY before the stated end; nothing is handed on. -/
def execFrameTruncated (s : State) : Host.Outcome State Fault Refusal :=
  s.unlessReset fun s =>
    if s.rx.state = .body ∧ s.frameRunning = true then State.finish { s.dropFrame with carrier := false } else s

/-- DISCARD_END (R8, R11): the observation is handed on, but for a frame from this station's own address. -/
def execDiscardEnd (s : State) : Host.Outcome State Fault Refusal :=
  s.unlessReset fun s =>
    match s.rx.state, s.rx.frame with
    | .discard, some f =>
      if f.ends ≤ s.now then
        (if f.own then s.dropFrame else (s.dropFrame.observe f none (f.echoCarried s.cfg.address [])).1).finishLinks
      else s
    | _, _ => s

/-! ## Contention (R18, R19) -/

/-- A backoff count of a sender in BACKOFF: zero ends the backoff, another waits for the end of the next slot (R18). -/
def State.countDown (count : Nat) (s : State) : State :=
  if count = 0 then State.backoffEnds { s with tx := { s.tx with count := some 0 } }
  else { s with tx := { s.tx with count := some count, slotEnd := some (s.now + backoffSlot) } }

/-- GUARD_GAP_COMPLETE (R18): DEFER to BACKOFF, and at once to the final check when the count is zero. -/
def execGuardGapComplete (s : State) : Host.Outcome State Fault Refusal :=
  s.unlessReset fun s =>
    if s.tx.state = .defer ∧ reached s.tx.guard s.now = true then
      (State.countDown (s.tx.count.getD 0) { s with tx := { s.tx with state := .backoff, guard := none } }).finish
    else s

/-- BACKOFF_SLOT_END (R18): the count falls by one, and zero ends the backoff. -/
def execBackoffSlotEnd (s : State) : Host.Outcome State Fault Refusal :=
  s.unlessReset fun s =>
    if s.tx.state = .backoff ∧ reached s.tx.slotEnd s.now = true then
      (State.countDown (s.tx.count.getD 0 - 1) s).finish
    else s

/-! ## The end of an own transmission (R20) -/

/-- The reflect buffer freed by the end of its REFLECT (R20, R153). -/
def State.freeReflect (id : Nat) (s : State) : State :=
  match s.tx.reflect with
  | some b => if b.id = id then { s with tx := { s.tx with reflect := none } } else s
  | none => s

/-- AWAIT ACK with the wait of 200 µs (R20). -/
def State.awaitAck (s : State) : State :=
  { s with tx := { s.tx with state := .awaitAck, ends := none, air := none, ackWait := some (s.now + ackWaitTime) } }

/-- What the end of a frame's transmission does, by its kind (R15, R20, R140, R151, R153). The activity, with its DUTY
report, comes before the probe is returned and may end its check with a CHECK report: DESIGN CHOICE (log 45). A DROP
report of the choice that follows comes after both: DESIGN CHOICE (log 46). -/
def State.sent (c : Chosen) (s : State) : State :=
  match c with
  | .beacon => State.beaconEnded (State.senderIdle { s with tx := { s.tx with beaconDue := false } })
  | .probe id => (s.activity.probeSent id).senderIdle
  | .reflect id => (s.activity.freeReflect id).senderIdle
  | .data _ _ => s.activity.awaitAck
  | .page _ _ => s.activity.awaitAck

/-- TRANSMISSION_END (R20). -/
def execTransmissionEnd (s : State) : Host.Outcome State Fault Refusal :=
  s.unlessReset fun s =>
    match s.tx.state, s.tx.chosen with
    | .sending, some c => if reached s.tx.ends s.now then (s.sent c).finish else s
    | _, _ => s

/-! ## Own ACKs and the ACK wait (R21, R22) -/

/-- The ACK frame for a debt (R2, 12_formats): the step of an UP record, else 31; the echo of a record, else 0. -/
def State.ackFrame (s : State) (a : AckOwed) : AirFrame :=
  { header := Header.encode
      { kind := .ack, full := a.full, dest := a.dest, src := s.cfg.address, cls := 0, len := 0,
        step := match s.recOf a.dest with
          | some r => if r.link = .up then r.trim.step else 31
          | none => 31
        echo := match s.recOf a.dest with | some r => r.echo | none => 0 }
    body := [] }

/-- SHORT_GAP_EXPIRY (R21): the owed ACK goes on air, 44 µs long, and the receiver enters OFF (R3). -/
def execShortGapExpiry (s : State) : Host.Outcome State Fault Refusal :=
  s.unlessReset fun s =>
    match s.tx.ackOwed with
    | some a =>
      if a.due ≤ s.now ∧ s.transmitting = false then
        State.finish { s with rx := s.rx.silenced,
                              tx := { s.tx with ackOwed := none, ackAir := some (s.ackFrame a, s.now + airtime 0 0) } }
      else s
    | none => s

/-- ACK_TRANSMISSION_END (R21): the sender resumes; an IDLE one makes its choice if work is waiting. -/
def execAckTransmissionEnd (s : State) : Host.Outcome State Fault Refusal :=
  s.unlessReset fun s =>
    match s.tx.ackAir with
    | some a =>
      if a.2 ≤ s.now then
        State.finish { s with tx := { s.tx with ackAir := none },
                              workAvailable := s.workAvailable || decide (s.tx.state = .idle) }
      else s
    | none => s

/-- ACK_WAIT_EXPIRY (R22, R23): the attempt has failed with no ACK. -/
def execAckWaitExpiry (s : State) : Host.Outcome State Fault Refusal :=
  s.unlessReset fun s =>
    if s.tx.state = .awaitAck ∧ reached s.tx.ackWait s.now = true then (s.settleAttempt .noAck).finishLinks else s

end Sys2Proof.Machine
end

