-- ==== Sys2Proof/Machine/RecordEvents.lean ====
section
/-! DEFINITION. The meanings of the rows that name a slot: the expiries of one neighbour record (02, 03, 05, 06, 09). A
slot without the record or the timer the row needs is left alone (log 3). -/

namespace Sys2Proof.Machine

/-! ## Silence, age and pairing (R33, R37, R46, R58, R59) -/

/-- SILENCE_LIMIT_REACHED (R33): the link of an UP record becomes LOST with cause SILENT. -/
def execSilenceLimitReached (slot : Nat) (s : State) : Host.Outcome State Fault Refusal :=
  s.unlessReset fun s =>
    match s.rec? slot with
    | some r =>
      if r.link = .up ∧ silenceLimit s.cfg r ≤ r.silenceMs then (s.loseLink slot .silent).finishLinks else s
    | none => s

/-- AGED (R37): a HEARD or LOST record past the forget time is removed. -/
def execAged (slot : Nat) (s : State) : Host.Outcome State Fault Refusal :=
  s.unlessReset fun s =>
    match s.rec? slot with
    | some r => if s.pastForget r then (s.removeRecord slot .aged).finishLinks else s
    | none => s

/-- INITIATION_WAIT_EXPIRY (R46): this station opens on a record that is still a candidate. -/
def execInitiationWaitExpiry (slot : Nat) (s : State) : Host.Outcome State Fault Refusal :=
  s.unlessReset fun s =>
    match s.rec? slot with
    | some r =>
      if reached r.initWait s.now then
        (if s.candidate r then s.openOn slot else s.setSlot slot (some { r with initWait := none })).finishLinks
      else s
    | none => s

/-- EXCHANGE_TIMEOUT (R58, R56): the record returns to HEARD with cause TIMEOUT, or REFUSED for a refusing exchange. -/
def execExchangeTimeout (slot : Nat) (s : State) : Host.Outcome State Fault Refusal :=
  s.unlessReset fun s =>
    match (s.rec? slot).bind Record.exch with
    | some x => if x.timer ≤ s.now then (s.failExchange slot).finishLinks else s
    | none => s

/-- OFFER_HOLDOFF_EXPIRY (R59): the holdoff becomes absent, and R46 assesses the record again. -/
def execOfferHoldoffExpiry (slot : Nat) (s : State) : Host.Outcome State Fault Refusal :=
  s.unlessReset fun s =>
    match s.rec? slot with
    | some r =>
      if reached r.holdoff s.now then (s.setSlot slot (some { r with holdoff := none })).finishLinks else s
    | none => s

/-! ## Fade timers (R83 to R86) -/

/-- The brief expiry on a record (R84): shadow flag, the expiry gone, and the report SHADOW BEGUN. -/
def State.shadowBegins (slot : Nat) (r : Record) (s : State) : State :=
  State.fadeReport slot r .shadowBegun .none s.cfg.tBrief r.fade.maxDef
    (s.setSlot slot (some { r with fade := { r.fade with shadow := true, brief := none } }))

/-- BRIEF_EXPIRY (R84): the fade becomes a SHADOW, and the flag is announced. -/
def execBriefExpiry (slot : Nat) (s : State) : Host.Outcome State Fault Refusal :=
  s.unlessReset fun s =>
    match s.rec? slot with
    | some r =>
      if r.fade.state.held = true ∧ reached r.fade.brief s.nowMs = true then
        ((s.shadowBegins slot r).announceFade slot r.fade).finish
      else s
    | none => s

/-- SETTLE_EXPIRY (R85, R83): the baseline is rebuilt from F with cause SETTLE; where the two expiries coincide, what
the brief expiry does comes first, and one announcement carries both. -/
def execSettleExpiry (slot : Nat) (s : State) : Host.Outcome State Fault Refusal :=
  s.unlessReset fun s =>
    match s.rec? slot with
    | some r =>
      match r.fade.settle with
      | some t =>
        if r.fade.state.held = true ∧ t ≤ s.nowMs then
          (State.rebuildBaseline slot .settle (t - r.fade.start.getD t)
            (if settleCarriesBrief s.cfg then s.shadowBegins slot r else s)).finish
        else s
      | none => s
    | none => s

/-! ## Trim timers (R99, R100) -/

/-- SETTLE_TIMEOUT (R99): the trim ends SILENT and enters HOLDOFF. -/
def execSettleTimeout (slot : Nat) (s : State) : Host.Outcome State Fault Refusal :=
  s.unlessReset fun s =>
    match s.rec? slot with
    | some r =>
      if r.trim.state = .settling ∧ reached r.trim.timer s.now = true then (s.endTrim slot .silent).finish else s
    | none => s

/-- TRIM_HOLDOFF_EXPIRY (R100): the trim is IDLE, the trigger is assessed at once, and r_used follows a change of p
(R97). The trim starts from the E held, and an echo of the same moment that is taken after it counts to its settling:
DESIGN CHOICE (log 43). -/
def execTrimHoldoffExpiry (slot : Nat) (s : State) : Host.Outcome State Fault Refusal :=
  s.unlessReset fun s =>
    match s.rec? slot with
    | some r =>
      if r.trim.state = .holdoff ∧ reached r.trim.timer s.now = true then
        (((s.setSlot slot (some { r with trim := { r.trim with state := .idle, timer := none } })).assessTrim
          slot).rerate slot).finish
      else s
    | none => s

/-! ## Peer windows (R146) -/

/-- PEER_WINDOW_END (R146): the end becomes absent, and the dozing peer is no longer listening. -/
def execPeerWindowEnd (slot : Nat) (s : State) : Host.Outcome State Fault Refusal :=
  s.unlessReset fun s =>
    match s.rec? slot with
    | some r => if reached r.windowEnd s.now then s.setSlot slot (some { r with windowEnd := none }) else s
    | none => s

end Sys2Proof.Machine
end

