-- ==== Sys2Proof/Machine/StationEvents.lean ====
section
/-! DEFINITION. The meanings of the station's own timers (08, 09, 10): the wait limit, the route age, the duty timers
and due times, the check pace and the reflect timeout; and the passing of time. -/

namespace Sys2Proof.Machine

/-! ## Relay Unit (R129, R133) -/

/-- The wait-limit test of a queued frame at the moment its age reaches T_wait (R129): made once, not on a frame in
flight, and dropping the frame NO PATH when it finds it waiting. -/
def State.waitTest (e : Entry) (s : State) : State :=
  let s1 : State :=
    { s with fwd := s.fwd.map fun (q : Entry) => if q.id = e.id then { q with waitDue := false } else q }
  if !s.inFlight e.id && decide (s.examine e = .waiting) then s1.dropEntry e.id .noPath else s1

/-- WAIT_LIMIT_EXPIRY (R129; log 27). -/
def execWaitLimitExpiry (position : Nat) (s : State) : Host.Outcome State Fault Refusal :=
  s.unlessReset fun s =>
    match s.fwd[position]? with
    | some e => if e.waitDue && s.pastWait e then (s.waitTest e).finish else s
    | none => s

/-- The return path of a destination has reached the route age (R133). -/
def State.routeOld (s : State) (dest : Addr) : Bool :=
  match s.paths.find? fun p => decide (p.dest = dest) with
  | some p => decide (1000 * s.cfg.routeAge ≤ s.nowMs - p.refresh)
  | none => false

/-- ROUTE_AGE_EXPIRY (R133): the entry is removed, and the change of a return path makes work available (R14). -/
def execRouteAgeExpiry (dest : Addr) (s : State) : Host.Outcome State Fault Refusal :=
  s.unlessReset fun s =>
    if s.routeOld dest then
      State.finish { s with paths := s.paths.filter fun p => decide (p.dest ≠ dest), workAvailable := true }
    else s

/-! ## Duty Controller (R139, R141, R142, R144) -/

/-- The interval in progress and the next due time after a due time: the interval of the mode now (R142). -/
def Duty.dueAt (due : Nat) (d : Duty) : Duty :=
  { d with interval := d.mode.interval, nextDue := some (due + ms d.mode.interval) }

/-- A due time arrives (R142, R15): the one due beacon, which is work for the sender (R14), and the next interval. -/
def State.beaconFallsDue (due : Nat) (s : State) : State :=
  { s with tx := { s.tx with beaconDue := true }, duty := s.duty.dueAt due, workAvailable := true }

/-- ACQUISITION_EXPIRY (R139): ON AIR, the step-down timer with T_quiet, the first beacon due at this moment (log 16),
and every HEARD record assessed (R46). -/
def execAcquisitionExpiry (s : State) : Host.Outcome State Fault Refusal :=
  s.unlessReset fun s =>
    if s.station = .acquiring ∧ reached s.duty.acquisition s.now = true then
      State.finishLinks (State.beaconFallsDue s.now
        { s with station := .onAir,
                 duty := { s.duty with acquisition := none, stepDown := dutyTimer s.now s.cfg.tQuiet } })
    else s

/-- The duty controller stepped down (R141, R143): ACTIVE to QUIET with T_doze, QUIET to DOZE with the entry hold. -/
def Duty.steppedDown (now tDoze : Nat) (d : Duty) : Duty :=
  match d.mode with
  | .active => { d with mode := .quiet, stepDown := dutyTimer now tDoze }
  | .quiet => { d with mode := .doze, stepDown := none, survey := 0, listen := .entryHold }
  | .doze => d

/-- STEP_DOWN_EXPIRY (R141, R148). -/
def execStepDownExpiry (s : State) : Host.Outcome State Fault Refusal :=
  s.unlessReset fun s =>
    if s.station = .onAir ∧ s.duty.mode ≠ .doze ∧ reached s.duty.stepDown s.now = true then
      (State.dutyReport (s.duty.steppedDown s.now s.cfg.tDoze).mode s.duty.mode false
        { s with duty := s.duty.steppedDown s.now s.cfg.tDoze }).finish
    else s

/-- BEACON_DUE (R142, R15). -/
def execBeaconDue (s : State) : Host.Outcome State Fault Refusal :=
  s.unlessReset fun s =>
    match s.duty.nextDue with
    | some due => if s.station = .onAir ∧ due ≤ s.now then (s.beaconFallsDue due).finish else s
    | none => s

/-- The end of the listen period in progress, if it has one of its own (R143, R144). -/
def ListenPeriod.ends? : ListenPeriod → Option Nat
  | .window t => some t
  | .survey t => some t
  | .none => Option.none
  | .entryHold => Option.none

/-- LISTEN_PERIOD_END (R144): the period becomes none and the listening request ends. -/
def execListenPeriodEnd (s : State) : Host.Outcome State Fault Refusal :=
  s.unlessReset fun s =>
    if reached s.duty.listen.ends? s.now then State.finish { s with duty := { s.duty with listen := .none } } else s

/-! ## Link Checker (R151, R154) -/

/-- CHECK_PACE_EXPIRY (R151): the next probe is made ready. -/
def execCheckPaceExpiry (s : State) : Host.Outcome State Fault Refusal :=
  s.unlessReset fun s =>
    match s.check.state with
    | .pacing t => if t ≤ s.now then s.readyProbe.finish else s
    | _ => s

/-- REFLECT_TIMEOUT (R154): the probe is settled as lost, no live counter moved. -/
def execReflectTimeout (s : State) : Host.Outcome State Fault Refusal :=
  s.unlessReset fun s =>
    match s.check.state with
    | .outstanding _ t => if t ≤ s.now then (s.probeSettled false).finish else s
    | _ => s

/-! ## The passing of time (R29, R33; log 2) -/

/-- The largest silence accumulator in µs: 65,535 ms (R33). -/
def silenceTop : Nat := ms 65535

/-- A record after 1 µs, when the receiver listens (R33). -/
def Record.silenced (r : Record) : Record := { r with silence := min silenceTop (r.silence + 1) }

/-- 1 µs passes: the clock, and the silence accumulators while the receiver listens (R33). -/
def State.tick (s : State) : State :=
  { s with now := s.now + 1,
           slots := if s.rx.state = .off then s.slots else s.slots.map (Option.map Record.silenced) }

end Sys2Proof.Machine
end

