-- ==== Sys2Proof/Machine/Dispatch.lean ====
section
/-! DEFINITION. The dispatch: one arm per constructor of `Instr`, each one direct call of its meaning. -/

namespace Sys2Proof.Machine

/-- The effect of a command on everything but the queue: its meaning, by the rule its row of the table names. -/
def exec (i : Instr) (s : State) : Host.Outcome State Fault Refusal :=
  match i with
  | .powerOn => Sys2Proof.Machine.execPowerOn s
  | .resetLineAsserted => Sys2Proof.Machine.execResetLineAsserted s
  | .resetLineReleased => Sys2Proof.Machine.execResetLineReleased s
  | .transactionCutShort => Sys2Proof.Machine.execTransactionCutShort s
  | .unknownCommand => Sys2Proof.Machine.execUnknownCommand s
  | .loadSettings => Sys2Proof.Machine.execLoadSettings s
  | .readSettings => Sys2Proof.Machine.execReadSettings s
  | .start => Sys2Proof.Machine.execStart s
  | .stop => Sys2Proof.Machine.execStop s
  | .reset => Sys2Proof.Machine.execReset s
  | .send => Sys2Proof.Machine.execSend s
  | .takeFrame => Sys2Proof.Machine.execTakeFrame s
  | .takeReports => Sys2Proof.Machine.execTakeReports s
  | .readNeighbours => Sys2Proof.Machine.execReadNeighbours s
  | .readStation => Sys2Proof.Machine.execReadStation s
  | .reseed => Sys2Proof.Machine.execReseed s
  | .forget => Sys2Proof.Machine.execForget s
  | .checkStart => Sys2Proof.Machine.execCheckStart s
  | .checkStop => Sys2Proof.Machine.execCheckStop s
  | .checkFreeze => Sys2Proof.Machine.execCheckFreeze s
  | .checkRead => Sys2Proof.Machine.execCheckRead s
  | .mediumBusyChange carrier => Sys2Proof.Machine.execMediumBusyChange carrier s
  | .syncWordFound => Sys2Proof.Machine.execSyncWordFound s
  | .headerAbandoned => Sys2Proof.Machine.execHeaderAbandoned s
  | .headerReceived header raw => Sys2Proof.Machine.execHeaderReceived header raw s
  | .frameEnd body => Sys2Proof.Machine.execFrameEnd body s
  | .frameTruncated => Sys2Proof.Machine.execFrameTruncated s
  | .discardEnd => Sys2Proof.Machine.execDiscardEnd s
  | .guardGapComplete => Sys2Proof.Machine.execGuardGapComplete s
  | .backoffSlotEnd => Sys2Proof.Machine.execBackoffSlotEnd s
  | .transmissionEnd => Sys2Proof.Machine.execTransmissionEnd s
  | .shortGapExpiry => Sys2Proof.Machine.execShortGapExpiry s
  | .ackTransmissionEnd => Sys2Proof.Machine.execAckTransmissionEnd s
  | .ackWaitExpiry => Sys2Proof.Machine.execAckWaitExpiry s
  | .silenceLimitReached slot => Sys2Proof.Machine.execSilenceLimitReached slot s
  | .aged slot => Sys2Proof.Machine.execAged slot s
  | .initiationWaitExpiry slot => Sys2Proof.Machine.execInitiationWaitExpiry slot s
  | .exchangeTimeout slot => Sys2Proof.Machine.execExchangeTimeout slot s
  | .offerHoldoffExpiry slot => Sys2Proof.Machine.execOfferHoldoffExpiry slot s
  | .briefExpiry slot => Sys2Proof.Machine.execBriefExpiry slot s
  | .settleExpiry slot => Sys2Proof.Machine.execSettleExpiry slot s
  | .settleTimeout slot => Sys2Proof.Machine.execSettleTimeout slot s
  | .trimHoldoffExpiry slot => Sys2Proof.Machine.execTrimHoldoffExpiry slot s
  | .waitLimitExpiry position => Sys2Proof.Machine.execWaitLimitExpiry position s
  | .routeAgeExpiry dest => Sys2Proof.Machine.execRouteAgeExpiry dest s
  | .acquisitionExpiry => Sys2Proof.Machine.execAcquisitionExpiry s
  | .stepDownExpiry => Sys2Proof.Machine.execStepDownExpiry s
  | .beaconDue => Sys2Proof.Machine.execBeaconDue s
  | .listenPeriodEnd => Sys2Proof.Machine.execListenPeriodEnd s
  | .peerWindowEnd slot => Sys2Proof.Machine.execPeerWindowEnd slot s
  | .checkPaceExpiry => Sys2Proof.Machine.execCheckPaceExpiry s
  | .reflectTimeout => Sys2Proof.Machine.execReflectTimeout s
  | .transactionBegun => Sys2Proof.Machine.execTransactionBegun s
  | .portByteShifted data => Sys2Proof.Machine.execPortByteShifted data s

end Sys2Proof.Machine
end

