-- ==== Sys2Proof/Safety.lean ====
section
/-! DEFINITION. What the claims speak of: the parts of the state by block, the sums and bounds the manual states of
every moment, and the invariants a step keeps. -/

namespace Sys2Proof.Machine

/-! ## Parts of the state -/

/-- What only the host's rows, the resets, the acquisition expiry and the world's lines move: the queue, the clock, the
reset line, the carrier, the station state, the settings, the port, the latest command, the data sequence counter. -/
structure HostPart where
  pending    : List Instr
  now        : Nat
  inReset    : Bool
  carrier    : Bool
  station    : StationState
  settings   : Option Settings
  port       : Option Transaction
  pdo        : Option Byte
  latest     : Option (Byte × Status)
  seqCounter : Word16
  deriving DecidableEq, Repr

/-- The host part of a state. -/
def State.host (s : State) : HostPart :=
  { pending := s.pending, now := s.now, inReset := s.inReset, carrier := s.carrier, station := s.station,
    settings := s.settings, port := s.port, pdo := s.pdo, latest := s.latest, seqCounter := s.seqCounter }

/-- The report queue with its overrun marker. -/
def State.queue (s : State) : List Report × Bool := (s.reports, s.overrun)

/-- The Path Selector's two station values (R106). -/
def State.route (s : State) : Option NextHop × Nat := (s.nextHop, s.advCost)

/-- The Relay Unit's collections but for the forward queue: ring, seen list, return paths. -/
def State.relayed (s : State) : List Delivery × List (Addr × Word16) × List ReturnPath := (s.ring, s.seen, s.paths)

/-- A record but for the one part that an examination of the forward queue may raise: its no-path counter (R40,
R129). -/
def Record.uncounted (r : Record) : Record := { r with pathDrops := 0 }

/-- The table but for the no-path counters. -/
def State.table (s : State) : List (Option Record) := s.slots.map (Option.map Record.uncounted)

/-- 1 for yes, 0 for no. -/
def one (b : Bool) : Nat := if b then 1 else 0

/-- The buffers of all holders: the pool, the receiver, the port, the forward queue, the ring (R119). -/
def State.buffers (s : State) : Nat :=
  s.free + one s.rx.holds + one s.portHolds + s.fwd.length + s.ring.length

/-! ## What ends a command -/

/-- The Air Sender makes a choice: it is free to, and work has become available (R14). -/
def State.chooses (s : State) : Bool := s.mayChoose && s.workAvailable

/-- The state once the sender's choice, if it makes one, has been made (R14). -/
def State.afterChoice (s : State) : State := if s.chooses then s.choose else s

/-- A sender that has just chosen (R18): in DEFER with a frame and a backoff count below the contention window, the
guard gap running while the medium is idle. -/
structure State.HasChosen (a b : State) : Prop where
  state  : b.tx.state = .defer
  chosen : b.tx.chosen.isSome = true
  count  : ∃ n, b.tx.count = some n ∧ (0 < a.tx.cw → n < a.tx.cw)
  guard  : b.tx.guard = if b.sensedIdle then some (a.now + guardGap) else none
  rest   : { b.tx with state := a.tx.state, chosen := a.tx.chosen, count := a.tx.count, guard := a.tx.guard,
                       slotEnd := a.tx.slotEnd } = a.tx

/-- `b` is `a` after what ends every command: the sender's choice where it is free to choose and work has become
available (R14), the receiver's listening (R3, R13), contention (R18) and the attention line (R168). Every other part is
as in `a`. -/
structure State.Ends (a b : State) : Prop where
  host    : b.host = a.host
  duty    : b.duty = a.duty
  check   : b.check = a.check
  route   : b.route = a.route
  relayed : b.relayed = a.relayed
  table   : b.table = a.table
  buffers : b.buffers = a.buffers
  settled : b.workAvailable = false
  attn    : b.attnLow = b.attention
  /-- With no choice to make the queues, the table, the random stream and the identities are as they were. -/
  quiet   : a.chooses = false →
    b.fwd = a.fwd ∧ b.slots = a.slots ∧ b.queue = a.queue ∧ b.discards = a.discards ∧ b.draws = a.draws ∧
      b.serial = a.serial
  /-- The frame under way is left alone, and the receiver listens as it is asked to (R3). -/
  frame   : b.rx.frame = a.rx.frame
  synced  : b.rx.heldAtSync = a.rx.heldAtSync
  listens : b.rx.state = match a.rx.state with
    | .off => if b.askedToListen && !b.transmitting then .hunt else .off
    | .hunt => if b.askedToListen then .hunt else .off
    | other => other
  /-- The receiver takes a buffer, or requests one, as it enters HUNT from OFF holding none, and only then (R13). -/
  takes   :
    b.free = a.afterChoice.free ∧ b.rx.holds = a.afterChoice.rx.holds ∧ b.rx.request = a.afterChoice.rx.request ∧
      (a.rx.state = .off → b.rx.state = .hunt → b.rx.holds = true) ∨
    a.rx.state = .off ∧ b.rx.state = .hunt ∧ a.afterChoice.rx.holds = false ∧
      (0 < a.afterChoice.free ∧ b.free + 1 = a.afterChoice.free ∧ b.rx.holds = true ∧ b.rx.request = false ∨
        a.afterChoice.free = 0 ∧ b.free = 0 ∧ b.rx.holds = false ∧ b.rx.request = true)
  /-- An idle sender stays idle, or has chosen (R14). -/
  idle    : a.tx.state = .idle → b.tx = a.tx ∨ a.chooses = true ∧ State.HasChosen a b
  /-- In DEFER the guard gap runs exactly while the medium is sensed idle (R18). -/
  defer   : a.tx.state = .defer →
    b.tx = { a.tx with guard := if b.sensedIdle then some (a.tx.guard.getD (a.now + guardGap)) else none }
  /-- In BACKOFF a busy medium returns the sender to DEFER with its count (R18). -/
  backoff : a.tx.state = .backoff →
    b.tx = if b.sensedIdle then a.tx else { a.tx with state := .defer, guard := none, slotEnd := none }
  /-- A frame on air and an ACK wait are left alone. -/
  sending : a.tx.state = .sending ∨ a.tx.state = .awaitAck → b.tx = a.tx
  /-- With a choice to make the queues, the table, the random stream and the sender are those of `choose` (R14), the
  guard gap of a frame chosen running while the medium is sensed idle (R18). -/
  choice  : a.chooses = true →
    b.fwd = a.choose.fwd ∧ b.slots = a.choose.slots ∧ b.queue = a.choose.queue ∧ b.discards = a.choose.discards ∧
      b.draws = a.choose.draws ∧ b.serial = a.choose.serial ∧
      (a.choose.tx.state = .idle → b.tx = a.choose.tx) ∧
      (a.choose.tx.state = .defer →
        b.tx = { a.choose.tx with guard := if b.sensedIdle then some (a.now + guardGap) else none })

/-! ## Host commands at the rise of select (R160) -/

/-- The rise of select takes the command of a code: the part is not held in reset, and a transaction of that command
has its arguments complete. -/
def State.closing (s : State) (code : Byte) (t : Transaction) : Prop :=
  s.inReset = false ∧ s.port = some t ∧ t.complete = true ∧ t.code = code

/-- The state with the port closed and a command recorded as the latest taken, with its status (R160). -/
def State.taken (s : State) (code : Byte) (st : Status) : State := { s.closePort with latest := some (code, st) }

/-! ## The pool (R119) -/

/-- A port that holds a SEND's buffer is in a SEND whose first judgement is formed (R121, R163). -/
def Transaction.sound (t : Transaction) : Bool :=
  !t.sendHeld || (decide (t.code = 0x10) && decide (t.phase ≠ .command) && t.status.isSome)

/-- The transaction in progress, if any, is sound. -/
def State.portSound (s : State) : Bool :=
  match s.port with
  | some t => t.sound
  | none => true

/-- A body being stored is stored into the buffer the receiver holds (R9). -/
def Receiver.sound (r : Receiver) : Bool :=
  match r.frame with
  | some f => !f.store || r.holds
  | none => true

/-- The receiver is sound. -/
def State.rxSound (s : State) : Bool := s.rx.sound

/-- Every buffer has one holder (R119), and the two lenders' books are sound. -/
def State.PoolInv (s : State) : Prop := s.buffers = 48 ∧ s.portSound = true ∧ s.rxSound = true

/-! ## Bounds (R25, R123, R131, R132, R134, R167) -/

/-- The capacities the manual states of every collection, a SEND's reserved place counted; no pair stands twice in the
seen list, and a destination has at most one return path. -/
def State.BoundsInv (s : State) : Prop :=
  s.slots.length = 24 ∧ s.fwd.length + one s.portHolds ≤ 40 ∧ s.hostShare + one s.portHolds ≤ 16 ∧
    s.ring.length ≤ 12 ∧ s.seen.length ≤ 32 ∧ s.seen.Nodup ∧ s.paths.length ≤ 32 ∧
    (s.paths.map ReturnPath.dest).Nodup ∧ s.reports.length ≤ 32 ∧ s.portSound = true

/-! ## The attention line (R168) -/

/-- ATTN_N is driven low exactly while its condition holds. -/
def State.AttnInv (s : State) : Prop := s.attnLow = s.attention

/-! ## The table (R25) -/

/-- The peer addresses of the records, in slot order. -/
def State.peers (s : State) : List Addr := (s.slots.filterMap id).map Record.peer

/-- 24 slots, no two records with the same peer address, at most 12 UP (R25). -/
def State.TableInv (s : State) : Prop := s.slots.length = 24 ∧ s.peers.Nodup ∧ s.upCount ≤ 12

/-! ## Between commands -/

/-- No work stands unexamined: the mark of R14 is taken back by what ends every command (log 6). -/
def State.settled (s : State) : Prop := s.workAvailable = false

/-- Two keys of reports differ (R167). -/
def Report.otherKey (a b : Report) : Prop := a.body.kind ≠ b.body.kind ∨ a.addr ≠ b.addr

/-- The report queue holds at most 32 reports, no two of the same kind and address (R167). -/
def queueOk (q : List Report) : Prop := q.length ≤ 32 ∧ q.Pairwise Report.otherKey

/-- The settings lie in the ranges the measurement rules use (R162, section 11.3). -/
def Settings.filterOk (c : Settings) : Prop :=
  1 ≤ c.bSlow ∧ c.bSlow ≤ 255 ∧ c.sLo < c.sHi ∧ 1 ≤ c.bBase ∧ c.bBase ≤ 64

/-- The filtered margin and the baseline of a record lie within 0..4080 fine units (R65). -/
def Record.inRange (r : Record) : Prop := 0 ≤ r.F ∧ r.F ≤ 4080 ∧ 0 ≤ r.L ∧ r.L ≤ 4080

/-- Every record's F and L are in range, under settings in range (R65). -/
def State.MeasureInv (s : State) : Prop := s.cfg.filterOk ∧ ∀ i r, s.rec? i = some r → r.inRange

/-! ## The route (R106 to R115) -/

/-- The next hop is an eligible record of the table and the advertised cost is the path cost through it; with none it is
4095, or 0 at a gateway station, which has no next hop (R112 to R114). -/
def State.hopConsistent (s : State) : Prop :=
  match s.nextHop with
  | none => s.advCost = if s.cfg.gateway then 0 else 4095
  | some h => s.cfg.gateway = false ∧
      ∃ r, s.rec? h.slot = some r ∧ r.peer = h.addr ∧ r.eligible = true ∧ s.advCost = r.pathCost

/-- A record's derived values are those its parts give (R104, R107 to R109), and only a record in OFFERING has an
exchange part (R43). -/
def Record.consistent (c : Settings) (r : Record) : Prop :=
  r.costed c = r ∧ r.trim.rUsed = rateUsed c r ∧ (r.exch.isSome = true → r.link = .offering)

/-- The route is consistent: the next hop with the records, every record with itself, every return path with an UP
record (R132), the table empty and the receiver OFF outside ACQUIRING and ON AIR (R3, R25), and no settings held in
UNCONFIGURED (R161). -/
def State.RouteInv (s : State) : Prop :=
  s.hopConsistent ∧ (∀ i r, s.rec? i = some r → r.consistent s.cfg) ∧
    (∀ p ∈ s.paths, ∃ r, s.rec? p.via = some r ∧ r.link = .up) ∧
    (s.operating = false → s.rx.state = .off ∧ ∀ i, s.rec? i = none) ∧
    (s.station = .unconfigured → s.settings = none)

/-! ## Reports -/

/-- Between two states a report has been made: it stands in the queue, or it found the queue full and the overrun marker
is set (R167). -/
def State.Reported (s t : State) (a : Addr) (slot : Option Nat) (body : ReportBody) : Prop :=
  (∃ r ∈ t.reports, r.addr = a ∧ r.slot = slot ∧ r.body = body) ∨ 32 ≤ s.reports.length ∧ t.overrun = true

/-- A report made after up to `n` others of the same event: it stands in the queue, or it found the queue full and the
overrun marker is set (R167). -/
def State.ReportedAfter (n : Nat) (s t : State) (a : Addr) (slot : Option Nat) (body : ReportBody) : Prop :=
  (∃ r ∈ t.reports, r.addr = a ∧ r.slot = slot ∧ r.body = body) ∨ 32 ≤ s.reports.length + n ∧ t.overrun = true

/-! ## Reselection (R110, R115, R116) -/

/-- What the Path Selector does where the record `r` of slot `i` has become `r'`, between `s` and `t` (R110, R115,
R116): with its path cost or its eligible flag changed the next hop is reselected, with neither changed the route stays;
and a ROUTE report is made, after up to `n` others of the same event, when the next hop or the advertised
cost changed. -/
structure State.Reselects (n : Nat) (s t : State) (i : Nat) (r r' : Record) : Prop where
  changed : (r'.pathCost ≠ r.pathCost ∨ r'.eligible ≠ r.eligible) → t.route = (s.setSlot i (some r')).reselect.route
  same    : r'.pathCost = r.pathCost → r'.eligible = r.eligible → t.route = s.route
  report  : t.route ≠ s.route → State.ReportedAfter n s t 0 (t.nextHop.map NextHop.slot)
    (.route (hopAddr t.nextHop) t.advCost (hopAddr s.nextHop) s.advCost)

/-! ## Loss (R36) -/

/-- What the other blocks do when the UP link of slot `i` ends, between `s` and `t` (R36, R133, R153, R157): `b` is `s`
with the slot's record changed and the Table's own report made. The next hop is reselected, with a ROUTE report when it
or the advertised cost changed; every return path through the slot goes; a check on it ends LINK LOST, with its CHECK
report; the peer's REFLECT is withdrawn unless it is on air (log 34). No other report is made. -/
structure State.LinkEnds (s b t : State) (i : Nat) (peer : Addr) : Prop where
  route         : t.route = b.reselect.route
  queue         : (s.check.state = .idle ∨ ∀ c, s.check.record = some c → c.slot ≠ i) → t.queue = b.reselect.queue
  queueCheck    : ∀ c, s.check.record = some c → c.slot = i → s.check.state ≠ .idle →
    t.queue = (b.reselect.putReport c.peer (some c.slot)
      (.check .linkLost c.countCode c.settled s.check.live)).queue
  routeReport   : t.route ≠ s.route → State.ReportedAfter 1 s t 0 (t.nextHop.map NextHop.slot)
    (.route (hopAddr t.nextHop) t.advCost (hopAddr s.nextHop) s.advCost)
  paths         : t.paths = s.paths.filter fun q => decide (q.via ≠ i)
  checkEnds     : ∀ c, s.check.record = some c → c.slot = i → s.check.state ≠ .idle →
    t.check = { s.check with state := .idle, endCause := .linkLost } ∧
      State.ReportedAfter 2 s t c.peer (some c.slot) (.check .linkLost c.countCode c.settled s.check.live)
  checkStays    : (s.check.state = .idle ∨ ∀ c, s.check.record = some c → c.slot ≠ i) → t.check = s.check
  reflectFreed  : ∀ q, s.tx.reflect = some q → q.prober = peer →
    (s.tx.state ≠ .sending ∨ s.tx.chosen ≠ some (.reflect q.id)) → t.tx = { s.tx with reflect := none }
  reflectOnAir  : ∀ q, s.tx.reflect = some q → s.tx.state = .sending → s.tx.chosen = some (.reflect q.id) → t.tx = s.tx
  reflectStays  : (∀ q, s.tx.reflect = some q → q.prober ≠ peer) → t.tx = s.tx

/-! ## Exchanges (R43) -/

/-- A record of a slot with the exchange part `x`. -/
def State.withExch (s : State) (i : Nat) (r : Record) (x : Exchange) : State :=
  s.setSlot i (some { r with exch := some x })

/-- A record of a slot with the exchange part `x` in SENDING PAGES, its page `number` made ready now as a pending
control frame (R16, R44, R48). -/
def State.withPage (s : State) (i : Nat) (r : Record) (x : Exchange) (number : Nat) : State :=
  { s.withExch i r { x with phase := .sendingPages, nextPage := number,
                            page := some { id := s.serial, ready := s.now, number := number,
                                           bytes := pageBytes s.cfg x number, attempts := 0 } } with
    serial := s.serial + 1, workAvailable := true }

/-! ## Resets (R169) -/

/-- The rows that complete a reset. -/
def completesReset (c : Instr) : Bool :=
  decide (c = .powerOn) || decide (c = .resetLineReleased) || decide (c = .reset)

/-- What the manual's chapters state of the part at the completion of any reset with a cause (R169 and the reset
sentences of R3, R13, R24, R25, R106, R122, R137, R138, R149, R161); the interval in progress is log 1. -/
def State.HasResetValues (t : State) (cause : ResetCause) : Prop :=
  (t.station = .unconfigured ∧ t.settings = none ∧ t.port = none ∧ t.pdo = none ∧ t.latest = none ∧
    t.inReset = false ∧ t.attnLow = true ∧ t.overrun = false ∧ t.now = 0 ∧
    t.reports.map (fun r => (r.addr, r.slot, r.body)) = [(0, none, .started cause)]) ∧
  (t.free = 48 ∧ t.fwd = [] ∧ t.ring = [] ∧ t.seen = [] ∧ t.paths = [] ∧ t.seqCounter = 0 ∧
    t.slots = List.replicate 24 none ∧ t.nextHop = none ∧ t.advCost = 4095) ∧
  (t.rx = { state := .off, frame := none, holds := false, heldAtSync := false, request := false } ∧
    t.tx = { state := .idle, chosen := none, addressee := none, attempt := 0, count := none, cw := 16, guard := none,
             slotEnd := none, ends := none, ackWait := none, air := none, ackOwed := none, ackAir := none,
             beaconDue := false, reflect := none }) ∧
  t.duty = { mode := .active, stepDown := none, nextDue := none, interval := 100, listen := .none, survey := 0,
             acquisition := none } ∧
  t.check = { state := .idle, record := none, endCause := .none,
              live := { sent := 0, returned := 0, errored := 0, bits := 0, overflow := 0 },
              snapshot := { slot := 0, peer := 0, base := 0, mode := .saturate, settled := 0, running := false,
                            counters := { sent := 0, returned := 0, errored := 0, bits := 0, overflow := 0 } } }

end Sys2Proof.Machine
end

