-- ==== Sys2Proof/Certificates/Slice0/Obligations.lean ====
section
/-! DEFINITION. The statements for the provers. A statement about a command says, for every state and operands that meet
its hypotheses, that `exec` answers a next state and which one. `State.Ends a t` says that `t` is `a` after what ends
every command (Safety.lean): every part it does not name is as in `a`, so that the record update `a` is the frame.
Throughout, a host command's row is the rise of select (log 7), an expiry acts at its deadline or later (log 4), and
times are readings of a clock in µs (log 2, log 21): the model's choices. -/

open Sys2Proof Sys2Proof.Machine

/-! ## The machine -/

/-- The step asked of a block. The queue of waiting commands, and that a step takes the front one, are the model's
choice (log 29): the front command runs on the state with the queue's rest. -/
def Obligations.StepTakesFrontCommand : Prop :=
  ∀ (c : Instr) (rest : List Instr) (s : State),
    step { s with pending := c :: rest } = exec c { s with pending := rest }

/-- No command raises a fault or is refused: the manual gives the part no way to stop. An event that cannot occur in
the state it finds leaves that state as it is: an expiry of a timer that is not running or whose time has not come, an
end or a word of a frame that is not under way, a rise of select with no complete transaction of that command, a fall
of carrier that another row carries. That is the model's choice (log 3, log 4, log 10). -/
def Obligations.EveryCommandAnswersNext : Prop :=
  (∀ (c : Instr) (s : State), ∃ t, exec c s = .next t) ∧
  (∀ s : State,
    (∀ q ∈ ([(.loadSettings, 0x01), (.readSettings, 0x02), (.start, 0x03), (.stop, 0x04), (.reset, 0x05), (.send, 0x10),
        (.takeFrame, 0x11), (.takeReports, 0x12), (.readNeighbours, 0x20), (.readStation, 0x21), (.reseed, 0x30),
        (.forget, 0x31), (.checkStart, 0x40), (.checkStop, 0x41), (.checkFreeze, 0x42),
        (.checkRead, 0x43)] : List (Instr × Byte)),
      (∀ p, s.port = some p → p.complete = true → p.code ≠ q.2) → exec q.1 s = .next s) ∧
    ((∀ p, s.port = some p → p.complete = true → argCount p.code ≠ none) → exec .unknownCommand s = .next s) ∧
    ((∀ p, s.port = some p → p.complete = true) → exec .transactionCutShort s = .next s) ∧
    (s.port ≠ none → exec .transactionBegun s = .next s)) ∧
  (∀ s : State,
    (s.rx.state ≠ .hunt → exec .syncWordFound s = .next s) ∧
    (s.rx.state ≠ .header → exec .headerAbandoned s = .next s) ∧
    (∀ bs raw, (s.rx.state ≠ .header ∨ bs.length ≠ 10) → exec (.headerReceived bs raw) s = .next s) ∧
    (∀ body, (∀ f, s.rx.state = .body → s.rx.frame = some f → s.now < f.ends ∨ body.length ≠ f.header.len) →
      exec (.frameEnd body) s = .next s) ∧
    ((∀ f, s.rx.state = .body → s.rx.frame = some f → f.ends ≤ s.now) → exec .frameTruncated s = .next s) ∧
    ((∀ f, s.rx.state = .discard → s.rx.frame = some f → s.now < f.ends) → exec .discardEnd s = .next s) ∧
    (s.inReset = false → (s.rx.state = .header ∨ ∃ f, s.rx.state = .body ∧ s.rx.frame = some f ∧ s.now < f.ends) →
      exec (.mediumBusyChange false) s = .next s) ∧
    ((∀ e, s.tx.state = .defer → s.tx.guard = some e → s.now < e) → exec .guardGapComplete s = .next s) ∧
    ((∀ e, s.tx.state = .backoff → s.tx.slotEnd = some e → s.now < e) → exec .backoffSlotEnd s = .next s) ∧
    ((∀ e, s.tx.state = .sending → s.tx.ends = some e → s.now < e) → exec .transmissionEnd s = .next s) ∧
    ((∀ a, s.tx.ackOwed = some a → s.now < a.due ∨ s.transmitting = true) → exec .shortGapExpiry s = .next s) ∧
    ((∀ fr e, s.tx.ackAir = some (fr, e) → s.now < e) → exec .ackTransmissionEnd s = .next s) ∧
    ((∀ e, s.tx.state = .awaitAck → s.tx.ackWait = some e → s.now < e) → exec .ackWaitExpiry s = .next s)) ∧
  (∀ (s : State) (i : Nat),
    let none? (due : Record → Nat → Prop) : Prop := ∀ r e, s.rec? i = some r → due r e → s.now < e
    let noneMs (due : Record → Nat → Prop) : Prop := ∀ r e, s.rec? i = some r → due r e → s.nowMs < e
    let held (r : Record) : Prop := r.fade.state = .faded ∨ r.fade.state = .leaving
    ((∀ r, s.rec? i = some r → r.link = .up → r.silence / 1000 < s.cfg.kSilence * r.advert.mode.interval) →
      exec (.silenceLimitReached i) s = .next s) ∧
    ((∀ r, s.rec? i = some r → (r.link = .heard ∨ r.link = .lost) → s.nowMs - r.lastHeard < 1000 * s.cfg.forget) →
      exec (.aged i) s = .next s) ∧
    (none? (fun r e => r.initWait = some e) → exec (.initiationWaitExpiry i) s = .next s) ∧
    (none? (fun r e => ∃ x, r.exch = some x ∧ x.timer = e) → exec (.exchangeTimeout i) s = .next s) ∧
    (none? (fun r e => r.holdoff = some e) → exec (.offerHoldoffExpiry i) s = .next s) ∧
    (noneMs (fun r e => held r ∧ r.fade.brief = some e) → exec (.briefExpiry i) s = .next s) ∧
    (noneMs (fun r e => held r ∧ r.fade.settle = some e) → exec (.settleExpiry i) s = .next s) ∧
    (none? (fun r e => r.trim.state = .settling ∧ r.trim.timer = some e) → exec (.settleTimeout i) s = .next s) ∧
    (none? (fun r e => r.trim.state = .holdoff ∧ r.trim.timer = some e) → exec (.trimHoldoffExpiry i) s = .next s) ∧
    (none? (fun r e => r.windowEnd = some e) → exec (.peerWindowEnd i) s = .next s)) ∧
  (∀ s : State,
    (∀ k, (∀ q, s.fwd[k]? = some q → q.waitDue = true → s.nowMs - q.entered < 1000 * s.cfg.tWait) →
      exec (.waitLimitExpiry k) s = .next s) ∧
    (∀ dest, (∀ p, s.paths.find? (fun q => decide (q.dest = dest)) = some p →
        s.nowMs - p.refresh < 1000 * s.cfg.routeAge) → exec (.routeAgeExpiry dest) s = .next s) ∧
    ((∀ e, s.station = .acquiring → s.duty.acquisition = some e → s.now < e) →
      exec .acquisitionExpiry s = .next s) ∧
    ((∀ e, s.station = .onAir → s.duty.mode ≠ .doze → s.duty.stepDown = some e → s.now < e) →
      exec .stepDownExpiry s = .next s) ∧
    ((∀ e, s.station = .onAir → s.duty.nextDue = some e → s.now < e) → exec .beaconDue s = .next s) ∧
    ((∀ e, (s.duty.listen = .window e ∨ s.duty.listen = .survey e) → s.now < e) →
      exec .listenPeriodEnd s = .next s) ∧
    ((∀ e, s.check.state = .pacing e → s.now < e) → exec .checkPaceExpiry s = .next s) ∧
    ((∀ n e, s.check.state = .outstanding n e → s.now < e) → exec .reflectTimeout s = .next s))

/-- The model's choice (log 2, log 21): with no command waiting a step is 1 µs. The clock advances, and the silence
accumulators grow while the receiver listens, up to 65,535 ms (R33). Nothing else changes. What the rules read of the
clock and of the settings: times in ms are the whole ms of the clock (log 21), and settings are the values held (R162),
the defaults of the table standing in while none are held (log 38). -/
def Obligations.IdleStepPassesOneMicrosecond : Prop :=
  (∀ s : State, s.pending = [] →
    ∃ t, step s = .next t ∧ t.now = s.now + 1 ∧ { t with now := s.now, slots := s.slots } = s ∧
      (s.rx.state = .off → t.slots = s.slots) ∧
      (s.rx.state ≠ .off → ∀ i, t.rec? i =
        (s.rec? i).map fun r => { r with silence := min 65535000 (r.silence + 1) })) ∧
  (∀ s : State, s.nowMs = s.now / 1000 ∧ (∀ c, s.settings = some c → s.cfg = c) ∧
    (s.settings = none → s.cfg.values = fieldSpecs.map FieldSpec.dflt))

/-- A part held in reset disregards every event but the completion of the reset and power-on (R169); the carrier line
is the world's (log 10, log 19). RESET_LINE_ASSERTED (R169, R24, R160): the air blocks stop at once, a transaction is
abandoned, ATTN_N is released, and the buffers of the receiver and of a SEND in progress are free. The rest waits for
the completion (log 19). -/
def Obligations.ResetLineHoldsThePartStopped : Prop :=
  (∀ (c : Instr) (s : State), s.inReset = true →
    (∀ b, exec (.mediumBusyChange b) s = .next { s with carrier := b }) ∧
    (c ≠ .powerOn → c ≠ .resetLineReleased → (∀ b, c ≠ .mediumBusyChange b) → exec c s = .next s)) ∧
  (∀ s : State, s.inReset = false →
    exec .resetLineAsserted s = .next
      { s with inReset := true, port := none, pdo := none, attnLow := false,
               free := s.free + (one s.rx.holds + one s.portHolds),
               rx := { state := .off, frame := none, holds := false, heldAtSync := false, request := false },
               tx := { state := .idle, chosen := none, addressee := none, attempt := 0, count := none, cw := 16,
                       guard := none, slotEnd := none, ends := none, ackWait := none, air := none, ackOwed := none,
                       ackAir := none, beaconDue := false, reflect := none } })

/-- POWER_ON, RESET_LINE_RELEASED and RESET each complete a reset, and the states they leave differ in the cause
alone, which the STARTED report carries (R169). The rise of the reset line with no reset under way resets nothing. The
waiting commands, the random stream and the carrier line are not the part's to reset, and the interval in progress is
the model's choice (log 1, log 5); POWER_ON may come in any state (log 33); after a reset with PSEL_N low no
transaction is in progress and PDO is released (log 26). -/
def Obligations.ResetsLeaveResetValues : Prop :=
  ∀ (s : State) (p : Transaction),
    ∃ t, exec .powerOn s = .next t ∧ t.HasResetValues .power ∧ t.pending = s.pending ∧ t.carrier = s.carrier ∧
      (s.inReset = true → ∃ u, exec .resetLineReleased s = .next u ∧ u.HasResetValues .pin ∧
        { u with reports := t.reports } = t) ∧
      (s.inReset = false → exec .resetLineReleased s = .next s) ∧
      (s.closing 0x05 p → ∃ u, exec .reset s = .next u ∧ u.HasResetValues .command ∧
        { u with reports := t.reports } = t)

/-! ## Invariants of every step -/

/-- The state after reset meets every invariant stated below, holds the reset values of POWER_ON (R169), and has no
command waiting (log 1, log 29). -/
def Obligations.ResetStateMeetsInvariants : Prop :=
  State.reset.PoolInv ∧ State.reset.BoundsInv ∧ State.reset.AttnInv ∧ State.reset.TableInv ∧
    queueOk State.reset.reports ∧ State.reset.MeasureInv ∧ State.reset.RouteInv ∧
  State.reset.HasResetValues .power ∧ State.reset.pending = []

/-- Every one of the 48 buffers has one holder at every moment (R119). -/
def Obligations.StepKeepsEveryBufferHeldOnce : Prop :=
  ∀ s t : State, s.PoolInv → step s = .next t → t.PoolInv

/-- No collection ever exceeds the size the manual gives it, and a SEND that holds its buffer always has its place. At
most 32 reports, never two with one kind and address (R167). -/
def Obligations.StepKeepsCapacities : Prop :=
  (∀ s t : State, s.BoundsInv → step s = .next t → t.BoundsInv) ∧
  (∀ s t : State, queueOk s.reports → step s = .next t → queueOk t.reports)

/-- ATTN_N is low exactly while the report queue or the delivery ring holds an entry and the part is not held in reset
(R168). -/
def Obligations.StepKeepsAttentionLine : Prop :=
  (∀ s t : State, s.AttnInv → step s = .next t → t.AttnInv) ∧
  (∀ s : State, s.attention = true ↔ s.inReset = false ∧ (s.reports ≠ [] ∨ s.ring ≠ []))

/-- 24 slots, no two records with one peer address, at most 12 UP (R25). -/
def Obligations.StepKeepsTable : Prop :=
  ∀ s t : State, s.TableInv → step s = .next t → t.TableInv

/-- F and L of every record stay within 0..4080 fine units (R65), under settings in range. -/
def Obligations.StepKeepsMeasurementsInRange : Prop :=
  ∀ s t : State, s.MeasureInv → step s = .next t → t.MeasureInv

/-- The derived values of every record agree with what they are derived from (R104, R107 to R110), and the next hop
and the advertised cost agree with the records (R112 to R115): a next hop is an eligible record of the table, and the
advertised cost is the path cost through it. -/
def Obligations.StepKeepsRouteConsistent : Prop :=
  ∀ s t : State, s.RouteInv → step s = .next t → t.RouteInv

/-- Only their own rows move the station state (R161), the settings (R162), the sequence counter (R122), the latest
command (R160), the clock and the waiting commands; the clock and the queue are the model's (log 2, log 29). -/
def Obligations.OnlyTheirRowsMoveStationAndSettings : Prop :=
  ∀ (c : Instr) (s t : State), exec c s = .next t → completesReset c = false →
    t.now = s.now ∧ t.pending = s.pending ∧
    (c ≠ .loadSettings → t.settings = s.settings) ∧
    (c ≠ .loadSettings → c ≠ .start → c ≠ .stop → c ≠ .acquisitionExpiry → t.station = s.station) ∧
    (c ≠ .send → t.seqCounter = s.seqCounter) ∧
    (c ≠ .resetLineAsserted → t.inReset = s.inReset) ∧
    (t.latest ≠ s.latest → ∃ p st, s.port = some p ∧ p.complete = true ∧ t.latest = some (p.code, st) ∧ t.port = none)

/-! ## Layouts -/

/-- A header that 12_formats admits comes back from its ten bytes: no bit of a field is dropped, and its check passes.
The bodies of DATA, BEACON and OFFER come back from their bytes with the payload check appended, and so do the bytes of
any body at all, those of PROBE and REFLECT among them, with the probe number and the pattern (12_formats, R170). The
check is the register of R170: preset to 0xFFFF, each byte most significant bit first, shifted left one place with
0x1021 added where its top bit and the bit taken differ, and sent high byte first; it passes on a body that ends with
it. Each field stands at the bytes section 12.1 gives it, in the header and in the bodies of DATA, BEACON, OFFER, PROBE
and REFLECT. -/
def Obligations.FramesDecodeToWhatWasEncoded : Prop :=
  (∀ h : Header, stationAddress h.src = true → h.step < 256 → h.cls < 8 → h.len ≤ 1100 → h.echo < 256 →
    (h.kind = .ack ↔ h.len = 0) → (h.full = true → h.kind = .ack) →
    h.encode.length = 10 ∧ Header.parse h.encode = some h) ∧
  (∀ d : DataBody, stationAddress d.origin = true → d.dest ≠ 0 → d.dest ≠ 0xFFF#12 → d.hop ≤ 15 →
    1 ≤ d.payload.length → d.payload.length ≤ 1024 → parseData (withCheck d.encode) = some d) ∧
  (∀ (a : Advert) (l : List EchoEntry), a.cost ≤ 4095 → 10 ≤ a.window → a.window ≤ 100 → l.length ≤ 12 →
    (∀ e ∈ l, e.margin < 256) → parseBeacon (withCheck (beaconBody a l)) = some (a, l)) ∧
  (∀ (role : Role) (refuse refl : Bool) (n : Word16) (cap terms : Nat), cap ≤ 7 → terms ≤ 3 →
    parseOffer (withCheck (openBytes role refuse n cap refl terms)) = some (.opening role refuse n cap refl terms)) ∧
  (∀ number kind v : Nat, 1 ≤ number → number ≤ 3 → kind < 256 → v < 65536 →
    parseOffer (withCheck (termBytes number kind v)) = some (.term number kind v)) ∧
  (∀ (c : CheckRecord) (k : Nat), k < 4294967296 →
    natBE ((probeBody c k).take 4) = k ∧ (probeBody c k).drop 4 = patternBytes c k) ∧
  (∀ bs : List Byte, checkPasses (withCheck bs) = true ∧ bodyBytes (withCheck bs) = bs ∧
    (withCheck bs).length = bs.length + 2) ∧
  (∀ bs : List Byte, (∀ b : Byte,
      let bitIn (r : Word16) (bit : Bool) : Word16 := (r <<< 1) ^^^ (if r.getLsbD 15 != bit then 0x1021#16 else 0#16)
      crc16 (bs ++ [b]) = (List.range 8).foldl (fun r j => bitIn r (b.getLsbD (7 - j))) (crc16 bs) ∧
      natBE (bs ++ [b]) = natBE bs * 256 + b.toNat) ∧ crc16 [] = 0xFFFF#16 ∧ natBE [] = 0 ∧
    withCheck bs = bs ++ [BitVec.ofNat 8 ((crc16 bs).toNat / 256), BitVec.ofNat 8 (crc16 bs).toNat] ∧
    (checkPasses bs = true ↔ ∃ d, bs = withCheck d)) ∧
  (let B (n : Nat) : Byte := BitVec.ofNat 8 n
   let flag (b : Bool) : Byte := if b then 1 else 0
   (∀ h : Header,
      let kind := match h.kind with | .beacon => 1 | .data => 2 | .ack => 3 | .offer => 4 | .probe => 5 | .reflect => 6
      h.encode = withCheck [B (kind * 16 + if h.full then 1 else 0), B (h.dest.toNat / 16),
        B (h.dest.toNat % 16 * 16 + h.src.toNat / 256), B h.src.toNat, B h.step, B ((h.cls * 8192 + h.len) / 256),
        B (h.cls * 8192 + h.len), B h.echo]) ∧
    (∀ d : DataBody, d.encode = [B (d.origin.toNat / 16), B (d.origin.toNat % 16 * 16 + d.dest.toNat / 256),
      B d.dest.toNat, B (d.seq.toNat / 256), B d.seq.toNat, B d.hop] ++ d.payload) ∧
    (∀ (a : Advert) (l : List EchoEntry), beaconBody a l =
      [B (a.cost / 256), B a.cost, B (a.nextHop.toNat / 256), B a.nextHop.toNat,
       match a.mode with | .active => 0 | .quiet => 1 | .doze => 2, B (a.window / 256), B a.window, flag a.gateway,
       flag a.room, B l.length] ++
      (l.map fun e => [B (e.peer.toNat / 256), B e.peer.toNat, B e.margin, 0]).flatten) ∧
    (∀ (role : Role) (refuse refl : Bool) (n : Word16) (cap terms : Nat), openBytes role refuse n cap refl terms =
      [0, match role with | .proposer => 0 | .answerer => 1, flag refuse, B (n.toNat / 256), B n.toNat, B cap,
       flag refl, B terms]) ∧
    (∀ number kind v : Nat, termBytes number kind v = [B number, B kind, B (v / 256), B v]) ∧
    (∀ (c : CheckRecord) (k : Nat),
      probeBody c k = [B (k / 16777216), B (k / 65536), B (k / 256), B k] ++ patternBytes c k)) ∧
  (∀ a : Addr, stationAddress a = true ↔ 1 ≤ a.toNat ∧ a.toNat ≤ 0xFFD)

/-- Every field of the settings held after LOAD SETTINGS is in the range of the table (R162, section 11.3): H below
T_in, S_hi above S_lo, and every other field between its ends. Loading the form that READ SETTINGS returns holds the
same settings, and answers OK: nothing is clamped twice (R162). The widths, ranges and defaults are those of the
settings table, in its order (section 11.3, 12_formats): a field whose mask bit is set is read from its place, an
absent one takes its default, and each is brought into its range; the address and the channel must be given and in
range. Each field of the record is the value of its place. Fields lie with the least significant byte first. -/
def Obligations.SettingsAreHeldInRangeAndLoadBack : Prop :=
  (∀ (args : List Byte) (i : Nat) (f : FieldSpec), fieldSpecs[i]? = some f →
    ∃ v, (settingsHeld args)[i]? = some v ∧
      (i ≠ 8 → f.low ≤ v ∧ v ≤ f.high) ∧
      (i = 8 → v ≤ (settingsHeld args).getD 7 0 - 1) ∧
      (i = 5 → (settingsHeld args).getD 4 0 < v)) ∧
  (∀ args : List Byte, settingsAcceptable args = true →
    settingsAcceptable (Settings.ofValues (settingsHeld args)).form = true ∧
    settingsHeld (Settings.ofValues (settingsHeld args)).form = settingsHeld args ∧
    settingsTaken (Settings.ofValues (settingsHeld args)).form = settingsHeld args) ∧
  (fieldSpecs.map (fun f => (f.width, f.low, f.high, f.dflt)) =
    [(2, 1, 0xFFD, 0), (1, 0, 1, 0), (1, 0, 11, 0), (1, 1, 255, 32), (1, 1, 63, 4), (1, 2, 64, 20), (1, 1, 64, 4),
     (1, 4, 120, 24), (1, 0, 119, 8), (1, 1, 15, 3), (1, 1, 15, 3), (2, 0, 2000, 150), (2, 200, 10000, 1500),
     (1, 8, 200, 48), (2, 2, 600, 30), (1, 20, 200, 72), (1, 2, 60, 10), (1, 1, 8, 3), (1, 1, 30, 5), (2, 1, 600, 20),
     (1, 0, 31, 31), (1, 0, 7, 7), (1, 0, 40, 8), (1, 0, 255, 16), (2, 0, 1023, 64), (1, 0, 255, 6),
     (2, 16, 4094, 1024), (2, 0, 3600, 30), (2, 0, 3600, 300), (1, 10, 100, 25), (1, 1, 32, 8), (1, 2, 32, 6),
     (1, 0, 255, 12), (2, 10, 600, 120), (2, 10, 600, 180), (1, 1, 15, 8), (1, 0, 15, 6), (1, 1, 60, 10),
     (2, 64, 1024, 1024), (1, 0, 1, 1), (2, 0, 1000, 0)]) ∧
  (∀ args : List Byte,
    (∀ (i : Nat) (f : FieldSpec), fieldSpecs[i]? = some f →
      let start := 6 + ((fieldSpecs.take i).map FieldSpec.width).sum
      let given := if (natLE (args.take 6)).testBit i then some (natLE ((args.drop start).take f.width)) else none
      let v := given.getD f.dflt
      (settingsGiven args)[i]? = some given ∧ (settingsTaken args)[i]? = some v ∧
      (i ≠ 5 → i ≠ 8 → (settingsHeld args)[i]? = some (max f.low (min v f.high))) ∧
      (i = 5 → (settingsHeld args)[i]? = some (max ((settingsHeld args).getD 4 0 + 1) (max f.low (min v f.high)))) ∧
      (i = 8 → (settingsHeld args)[i]? = some (min v ((settingsHeld args).getD 7 0 - 1)))) ∧
    (settingsAcceptable args = true ↔
      (∃ a, (settingsGiven args)[0]? = some (some a) ∧ 1 ≤ a ∧ a ≤ 0xFFD) ∧
        ∃ ch, (settingsGiven args)[2]? = some (some ch) ∧ ch ≤ 11)) ∧
  (∀ c : Settings, Settings.ofValues c.values = c ∧ c.values =
    [c.address.toNat, if c.gateway then 1 else 0, c.channel, c.bSlow, c.sLo, c.sHi, c.bBase, c.tIn, c.hyst, c.eIn,
     c.eOut, c.tMin, c.tBrief, c.dDeep, c.tSettle, c.mTgt, c.hTrim, c.kSettle, c.settleTimeout, c.tHold, c.pInit,
     c.rateCap, c.guard, c.pFade, c.pShadow, c.sSw, c.cLimit, c.tQuiet, c.tDoze, c.wListen, c.nSurvey, c.kSilence,
     c.floor, c.forget, c.routeAge, c.hopLimit, c.rMax, c.tWait, c.maxPayload, if c.reflect then 1 else 0,
     c.checkPace]) ∧
  (natLE [] = 0 ∧ ∀ (b : Byte) (bs : List Byte), natLE (b :: bs) = b.toNat + 256 * natLE bs)

/-! ## The port (R159, R160) -/

/-- The transaction after its arguments: the status formed, the RESULT phase open, and formed with it the number of
items, the overrun marker (R165) and the sequence a SEND would take (R163). -/
def State.opensResult (s : State) (p : Transaction) (st : Status) : Transaction :=
  { p with phase := .result, status := some st, due := 0, total := s.resultItems p.code p.args st, marker := s.overrun,
           discardsAt := s.discards, seqOut := s.seqCounter }

/-- PORT_BYTE_SHIFTED with no transaction changes nothing (R159). In the COMMAND phase (R159, R160): a command with
arguments waits for them, one without is judged at once, and an unrecognised byte is answered UNKNOWN COMMAND at once.
In the ARGUMENTS phase of a command other than SEND: the byte joins the arguments, and the last one has the command
judged against the state at that moment. 0x00 goes out in both, and nothing else changes. In the RESULT phase the
status goes first, then the items in order, each formed from the state as its first byte goes (log 9); after the last
byte the phase is SPENT and 0x00 goes out. The argument counts, the status codes (12_formats) and the judgement of each
command, its tests in order (R162 to R166, R39, R73, R150, R156); that of SEND is SendIsJudgedAtTheLengthField. -/
def Obligations.PortBytesMoveTheTransaction : Prop :=
  (∀ (s : State) (data : Byte), s.inReset = false → s.port = none → exec (.portByteShifted data) s = .next s) ∧
  (∀ (s : State) (p : Transaction) (data : Byte), s.inReset = false → s.port = some p → p.phase = .command →
    (∀ n, argCount data = some (n + 1) → exec (.portByteShifted data) s = .next
      { s with port := some { p with code := data, phase := .arguments, due := n + 1 }, pdo := some 0 }) ∧
    (argCount data = some 0 → exec (.portByteShifted data) s = .next
      { s with port := some (State.opensResult s { p with code := data } (s.judge data [])), pdo := some 0 }) ∧
    (argCount data = none → exec (.portByteShifted data) s = .next
      { s with port := some (State.opensResult s { p with code := data } .unknownCommand), pdo := some 0 })) ∧
  (∀ (s : State) (p : Transaction) (data : Byte), s.inReset = false → s.port = some p → p.phase = .arguments →
    p.code ≠ 0x10 →
    (1 < p.due → exec (.portByteShifted data) s = .next
      { s with port := some { p with args := p.args ++ [data], due := p.due - 1 }, pdo := some 0 }) ∧
    (p.due ≤ 1 → exec (.portByteShifted data) s = .next
      { s with port := some (State.opensResult s { p with args := p.args ++ [data] }
                 (s.judge p.code (p.args ++ [data]))), pdo := some 0 })) ∧
  (∀ (s : State) (p : Transaction) (data : Byte), s.inReset = false → s.port = some p →
    (p.phase = .result → p.statusOut = false → exec (.portByteShifted data) s = .next
      { s with port := some { p with statusOut := true }.advance, pdo := some (p.status.getD .ok).code }) ∧
    (∀ b rest, p.phase = .result → p.statusOut = true → p.out = b :: rest → exec (.portByteShifted data) s = .next
      { s with port := some { p with out := rest }.advance, pdo := some b }) ∧
    (p.phase = .result → p.statusOut = true → p.out = [] → p.begun < p.total → exec (.portByteShifted data) s = .next
      { s with port := some { p with out := (s.resultItem p p.begun).drop 1, begun := p.begun + 1,
                                     snaps := p.snaps ++ s.snapOf p p.begun }.advance,
               pdo := some ((s.resultItem p p.begun).getD 0 0) }) ∧
    (p.phase = .spent → exec (.portByteShifted data) s = .next { s with pdo := some 0 })) ∧
  (∀ t : Transaction, (t.complete = true ↔ t.phase = .result ∨ t.phase = .spent) ∧
    (t.out = [] → t.total ≤ t.begun → t.advance = { t with phase := .spent }) ∧
    ((t.out ≠ [] ∨ t.begun < t.total) → t.advance = t)) ∧
  (argCount 0x01 = some 60 ∧ argCount 0x10 = some 6 ∧ argCount 0x20 = some 2 ∧ argCount 0x40 = some 7 ∧
    (∀ k ∈ ([0x02, 0x03, 0x04, 0x05, 0x11, 0x21, 0x41, 0x43] : List Byte), argCount k = some 0) ∧
    (∀ k ∈ ([0x12, 0x30, 0x31, 0x42] : List Byte), argCount k = some 1) ∧
    (∀ k : Byte, k ∉ ([0x01, 0x02, 0x03, 0x04, 0x05, 0x10, 0x11, 0x12, 0x20, 0x21, 0x30, 0x31, 0x40, 0x41, 0x42,
      0x43] : List Byte) → argCount k = none) ∧
    ([.ok, .clamped, .empty, .full, .busy, .wrongState, .noSuch, .badArgument, .unknownCommand] : List Status).map
      Status.code = [0, 1, 2, 3, 4, 5, 6, 7, 8]) ∧
  (∀ (s : State) (args : List Byte),
    let slot := byteAt args 0
    s.judge 0x01 args = (if s.station ≠ .unconfigured then .wrongState
      else if settingsAcceptable args = false then .badArgument
      else if settingsHeld args = settingsTaken args then .ok else .clamped) ∧
    s.judge 0x02 args = (if s.settings = none then .wrongState else .ok) ∧
    s.judge 0x03 args = (if s.station = .ready then .ok else .wrongState) ∧
    s.judge 0x04 args = (if s.station = .unconfigured then .wrongState else .ok) ∧
    s.judge 0x11 args = (if s.ring = [] then .empty else .ok) ∧
    s.judge 0x12 args = (if slot < 1 ∨ 32 < slot then .badArgument
      else if s.reports = [] ∧ s.overrun = false then .empty else .ok) ∧
    s.judge 0x20 args = (if 23 < slot ∨ byteAt args 1 < 1 ∨ 8 < byteAt args 1 then .badArgument else .ok) ∧
    s.judge 0x42 args = (if 1 < slot then .badArgument else .ok) ∧
    (∀ k ∈ ([0x05, 0x21, 0x41, 0x43] : List Byte), s.judge k args = .ok) ∧
    (23 < slot → s.judge 0x30 args = .badArgument ∧ s.judge 0x31 args = .badArgument) ∧
    (slot ≤ 23 → s.rec? slot = none → s.judge 0x30 args = .noSuch ∧ s.judge 0x31 args = .noSuch) ∧
    (∀ r, slot ≤ 23 → s.rec? slot = some r → s.judge 0x31 args = .ok ∧
      s.judge 0x30 args = if r.link = .heard ∨ r.link = .up then .ok else .wrongState) ∧
    (checkArgsOk args = false → s.judge 0x40 args = .badArgument) ∧
    (checkArgsOk args = true → s.check.state ≠ .idle → s.judge 0x40 args = .busy) ∧
    (checkArgsOk args = true → s.check.state = .idle →
      (s.rec? slot = none → s.judge 0x40 args = .noSuch) ∧
      (∀ r, s.rec? slot = some r →
        ((r.link ≠ .up ∨ r.terms = none ∨ ∃ m, r.terms = some m ∧ m.peerReflects = false) →
          s.judge 0x40 args = .wrongState) ∧
        (∀ m, r.link = .up → r.terms = some m → m.peerReflects = true →
          s.judge 0x40 args = if m.maxPayload < arg16 args 2 then .badArgument else .ok))))

/-- What a result holds (R159, R160, R163 to R166, R156, 12_formats, R171): how many items a status brings, and the
bytes of each. Multi-byte fields go least significant byte first. The settings form reads back as the values held, in 60
bytes; a delivered frame, the marker and count, the station status, the snapshot and the 58 bytes of a neighbour row
(which slot each row shows is ReadingCommandsChangeNothing) go field by field; a report is 24 bytes, its kind, key
address and slot (0xFF for none), then the fields of its kind, then 0. -/
def Obligations.ResultItemsCarryTheirBytes : Prop :=
  (∀ (s : State) (code : Byte) (args : List Byte) (st : Status),
    (st ≠ .ok → s.resultItems code args st = 0) ∧
    ((code = 0x02 ∨ code = 0x10 ∨ code = 0x11 ∨ code = 0x21 ∨ code = 0x43) → s.resultItems code args .ok = 1) ∧
    (code = 0x12 → s.resultItems code args .ok = 1 + min (byteAt args 0) s.reports.length) ∧
    (code = 0x20 → s.resultItems code args .ok = byteAt args 1) ∧
    ((code = 0x01 ∨ code = 0x03 ∨ code = 0x04 ∨ code = 0x05 ∨ code = 0x30 ∨ code = 0x31 ∨ code = 0x40 ∨ code = 0x41 ∨
      code = 0x42) → s.resultItems code args .ok = 0)) ∧
  (∀ n : Nat, natLE (le16 n) = n % 65536 ∧ (le16 n).length = 2 ∧ natLE (le32 n) = n % 4294967296 ∧
    (le32 n).length = 4 ∧ byteOf n = BitVec.ofNat 8 n ∧
    le16 n = [BitVec.ofNat 8 n, BitVec.ofNat 8 (n / 256)] ∧
    le32 n = [BitVec.ofNat 8 n, BitVec.ofNat 8 (n / 256), BitVec.ofNat 8 (n / 65536), BitVec.ofNat 8 (n / 16777216)]) ∧
  (∀ (s : State) (p : Transaction) (k : Nat),
    let latest : Byte × Byte := match s.latest with | some c => (c.1, c.2.code) | none => (0x00, 0xFF)
    let n := s.check.snapshot
    (p.code = 0x02 → ∀ c, s.settings = some c → s.resultItem p k = c.form) ∧
    (p.code = 0x10 → s.resultItem p k = le16 p.seqOut.toNat) ∧
    (p.code = 0x11 → ∀ d rest, s.ring = d :: rest →
      s.resultItem p k = le16 d.origin.toNat ++ le16 d.seq.toNat ++ le16 d.payload.length ++ d.payload) ∧
    (p.code = 0x12 → s.resultItem p 0 = ([if p.marker then 1 else 0, byteOf (p.total - 1)] : List Byte) ∧
      ∀ r, s.reports[k]? = some r → s.resultItem p (k + 1) = r.encode) ∧
    (p.code = 0x21 → s.resultItem p k =
      ([byteOf (match s.station with | .unconfigured => 0 | .ready => 1 | .acquiring => 2 | .onAir => 3),
       byteOf (match s.duty.mode with | .active => 0 | .quiet => 1 | .doze => 2)] : List Byte) ++
      le16 (match s.nextHop with | some h => h.addr.toNat | none => 0) ++
      ([match s.nextHop with | some h => byteOf h.slot | none => 0xFF] : List Byte) ++ le16 s.advCost ++
      ([byteOf s.fwd.length, byteOf (s.fwd.filter fun e => e.tag.isSome).length, byteOf s.ring.length, byteOf s.free,
       byteOf s.upCount, byteOf s.reports.length, if s.overrun then 1 else 0, latest.1, latest.2] : List Byte)) ∧
    (p.code = 0x43 → s.resultItem p k =
      [byteOf n.slot] ++ le16 n.peer.toNat ++ le16 n.base ++
      ([match n.mode with | .saturate => 0 | .wrap => 1] : List Byte) ++
      le16 n.settled ++ ([if n.running then 1 else 0,
        match s.check.endCause with
        | .none => 0 | .countDone => 1 | .stopped => 2 | .saturated => 3 | .linkLost => 4
        | .stationStopped => 5] : List Byte) ++
      le32 n.counters.sent ++ le32 n.counters.returned ++ le32 n.counters.errored ++ le16 n.counters.bits ++
      [byteOf n.counters.overflow])) ∧
  (∀ (now : Nat) (r : Record),
    let word (x : Int) : List Byte := le16 (x % 65536).toNat
    let flag (b : Bool) : Byte := if b then 1 else 0
    r.row now =
      ([match r.link with | .heard => 1 | .offering => 2 | .up => 3 | .lost => 4] : List Byte) ++ le16 r.peer.toNat ++
      le32 (min 4294967295 (now - r.lastHeard)) ++ le16 (r.silence / 1000) ++
      le16 r.advert.cost ++ le16 r.advert.nextHop.toNat ++
      ([match r.advert.mode with | .active => 0 | .quiet => 1 | .doze => 2, byteOf r.advert.window,
        flag r.advert.gateway, flag r.advert.room] : List Byte) ++ word r.F ++ word r.L ++
      ([match r.fade.state with | .clear => 0 | .entering => 1 | .faded => 2 | .leaving => 3, byteOf r.fade.count,
        byteOf r.fade.maxDef, flag r.fade.shadow] : List Byte) ++
      (match r.fade.start with | some b => le32 (now - b) | none => [0xFF, 0xFF, 0xFF, 0xFF]) ++
      (match r.trim.echo with | some e => [byteOf e, 1] | none => [0, 0]) ++
      ([byteOf r.notEchoed, byteOf r.trim.step,
        match r.trim.state with | .idle => 0 | .settling => 1 | .holdoff => 2, byteOf r.trim.count,
        match r.trim.last with
        | none => 0xFF | some .set => 0 | some .weak => 1 | some .strong => 2 | some .drift => 3 | some .silent => 4,
        flag r.trim.clamped] : List Byte) ++
      (match r.terms with
       | some m => [byteOf m.rateCeiling] ++ le16 m.maxPayload ++ le16 m.pace ++ [flag m.peerReflects]
       | none => [0xFF, 0, 0, 0, 0, 0]) ++
      [byteOf r.trim.rUsed] ++ le16 r.linkCost ++ le16 r.pathCost ++ [flag r.eligible] ++
      (match r.exch with
       | some x => [match x.role with | .proposer => 0 | .answerer => 1,
                    match x.phase with | .sendingPages => 0 | .awaitingPages => 1]
       | none => [0xFF, 0xFF]) ++
      [byteOf r.failStreak] ++ le16 r.hopDrops ++ le16 r.loopDrops ++ le16 r.pathDrops ∧ (r.row now).length = 58) ∧
  (∀ c : Settings,
    (∀ (i : Nat) (f : FieldSpec) (v : Nat), fieldSpecs[i]? = some f → c.values[i]? = some v → v < 256 ^ f.width) →
    c.form.length = 60 ∧ c.form.take 6 = [0xFF, 0xFF, 0xFF, 0xFF, 0xFF, 0x01] ∧
      settingsGiven c.form = c.values.map some) ∧
  (∀ r : Report,
    let key (kind : Byte) : List Byte :=
      [kind] ++ le16 r.addr.toNat ++ ([match r.slot with | some i => byteOf i | none => 0xFF] : List Byte)
    let word (x : Int) : List Byte := le16 (x % 65536).toNat
    r.encode.length = 24 ∧
    (∀ c, r.body = .started c → r.encode = key 1 ++
      ([match c with | .power => 0 | .pin => 1 | .command => 2] : List Byte) ++ List.replicate 19 0) ∧
    (∀ ev c l, r.body = .neighbour ev c l → r.encode = key 2 ++
      ([match ev with | .admitted => 0 | .heard => 1 | .up => 2 | .lost => 3 | .removed => 4,
       match c with
       | .none => 0 | .refused => 1 | .timeout => 2 | .tie => 3 | .silent => 4 | .noAck => 5 | .notEchoed => 6
       | .forgotten => 7 | .aged => 8 | .evicted => 9,
       match l with
       | none => 0 | some .heard => 1 | some .offering => 2 | some .up => 3 | some .lost => 4] : List Byte) ++
      List.replicate 17 0) ∧
    (∀ k c t d F L, r.body = .fade k c t d F L → r.encode = key 3 ++
      ([match k with | .blip => 0 | .pass => 1 | .shadowBegun => 2 | .shadowEnded => 3 | .reseeded => 4,
       match c with | .none => 0 | .settle => 1 | .host => 2] : List Byte) ++ le32 t ++ [byteOf d] ++ word F ++
      word L ++ List.replicate 9 0) ∧
    (∀ o p cl e X n u, r.body = .trim o p cl e X n u → r.encode = key 4 ++
      ([match o with | .set => 0 | .weak => 1 | .strong => 2 | .drift => 3 | .silent => 4, byteOf p,
       if cl then 1 else 0, byteOf e] : List Byte) ++ word X ++ [byteOf n, byteOf u] ++ List.replicate 12 0) ∧
    (∀ h c h' c', r.body = .route h c h' c' → r.encode = key 5 ++ le16 h.toNat ++ le16 c ++ le16 h'.toNat ++ le16 c' ++
      List.replicate 12 0) ∧
    (∀ n tag c q, r.body = .drop n tag c q → r.encode = key 6 ++ [byteOf n] ++ le16 tag.toNat ++
      ([match c with | .noAck => 0 | .fullAtPeer => 1 | .noPath => 2 | .tooLong => 3 | .stopped => 4] : List Byte) ++
      le16 q.toNat ++ List.replicate 14 0) ∧
    (∀ c m n v, r.body = .check c m n v → r.encode = key 7 ++
      ([match c with
       | .none => 0 | .countDone => 1 | .stopped => 2 | .saturated => 3 | .linkLost => 4 | .stationStopped => 5,
       byteOf m] : List Byte) ++ le16 n ++ le32 v.sent ++ le32 v.returned ++ le32 v.errored ++ le16 v.bits ++
      [byteOf v.overflow] ++ List.replicate 1 0) ∧
    (∀ m m' w, r.body = .duty m m' w → r.encode = key 8 ++
      ([match m with | .active => 0 | .quiet => 1 | .doze => 2, match m' with | .active => 0 | .quiet => 1 | .doze => 2,
       if w then 1 else 0] : List Byte) ++ le16 (match m with | .active => 100 | .quiet => 400 | .doze => 1600) ++
      List.replicate 15 0))

/-- The argument bytes of SEND (R121, R159, R163). The byte that completes the length field has the SEND judged: judged
OK it takes a buffer; with a length of 1 to 1,024 the payload follows, otherwise the status (for a bad destination too,
log 35). A payload byte is stored when the SEND holds its buffer and discarded when it was refused; the last opens the
RESULT phase. SEND's judgement at its length field, its tests in order (R163, R121). A two-byte argument lies with its
least significant byte first (R159). -/
def Obligations.SendIsJudgedAtTheLengthField : Prop :=
  (∀ (s : State) (p : Transaction) (data : Byte), s.inReset = false → s.port = some p → p.phase = .arguments →
    p.code = 0x10 →
    (p.status = none → 1 < p.due → exec (.portByteShifted data) s = .next
      { s with port := some { p with args := p.args ++ [data], due := p.due - 1 }, pdo := some 0 }) ∧
    (p.status = none → p.due ≤ 1 → s.judgeSend (p.args ++ [data]) = .ok → exec (.portByteShifted data) s = .next
      { s with free := s.free - 1, pdo := some 0,
               port := some { p with args := p.args ++ [data], due := sendExpects (p.args ++ [data]),
                                     status := some .ok, sendHeld := true } }) ∧
    (∀ st, p.status = none → p.due ≤ 1 → s.judgeSend (p.args ++ [data]) = st → st ≠ .ok →
      0 < sendExpects (p.args ++ [data]) → exec (.portByteShifted data) s = .next
      { s with port := some { p with args := p.args ++ [data], due := sendExpects (p.args ++ [data]), status := some st,
                                     sendHeld := false }, pdo := some 0 }) ∧
    (∀ st, p.status = none → p.due ≤ 1 → s.judgeSend (p.args ++ [data]) = st → sendExpects (p.args ++ [data]) = 0 →
      st ≠ .ok ∧ exec (.portByteShifted data) s = .next
      { s with port := some (State.opensResult s { p with args := p.args ++ [data], sendHeld := false } st),
               pdo := some 0 }) ∧
    (∀ st, p.status = some st → 1 < p.due → exec (.portByteShifted data) s = .next
      { s with port := some { p with args := if p.sendHeld then p.args ++ [data] else p.args, due := p.due - 1 },
               pdo := some 0 }) ∧
    (∀ st, p.status = some st → p.due ≤ 1 → exec (.portByteShifted data) s = .next
      { s with port := some (State.opensResult s { p with args := if p.sendHeld then p.args ++ [data] else p.args } st),
               pdo := some 0 })) ∧
  (∀ (s : State) (args : List Byte),
    let dest := arg16 args 0
    let refusedDest := dest = 0 ∨ 0xFFF ≤ dest ∨ dest = s.cfg.address.toNat ∨ dest = 0xFFE ∧ s.cfg.gateway = true
    let refusedLength := arg16 args 4 = 0 ∨ 1024 < arg16 args 4
    let refusedPool := s.free = 0 ∨ 40 ≤ s.fwd.length ∨ 16 ≤ (s.fwd.filter fun e => e.tag.isSome).length
    (s.judgeSend args = .wrongState ↔ s.station ≠ .onAir) ∧
    (s.judgeSend args = .badArgument ↔ s.station = .onAir ∧ (refusedDest ∨ refusedLength)) ∧
    (s.judgeSend args = .full ↔ s.station = .onAir ∧ ¬refusedDest ∧ ¬refusedLength ∧ refusedPool) ∧
    (s.judgeSend args = .ok ↔ s.station = .onAir ∧ ¬refusedDest ∧ ¬refusedLength ∧ ¬refusedPool)) ∧
  (∀ args : List Byte,
    sendExpects args = (if 1 ≤ arg16 args 4 ∧ arg16 args 4 ≤ 1024 then arg16 args 4 else 0) ∧
    (∀ i, byteAt args i = (args.getD i 0).toNat) ∧
    (∀ i, i + 1 < args.length → arg16 args i = byteAt args i + 256 * byteAt args (i + 1))) ∧
  (∀ s : State, (s.portHolds = true ↔ ∃ p, s.port = some p ∧ p.sendHeld = true) ∧
    s.hostShare = (s.fwd.filter fun e => e.tag.isSome).length)

/-- The edges of select that take no command. TRANSACTION_BEGUN opens a transaction in the COMMAND phase that holds
nothing; 0x00 goes out (R159). TRANSACTION_CUT_SHORT (R160, R121): nothing is taken or recorded; a SEND gives its
buffer back, to the receiver's standing request if one stands. UNKNOWN_COMMAND closes the port and does nothing else
(R159, R160, log 8). -/
def Obligations.SelectEdgesThatTakeNoCommand : Prop :=
  (∀ s : State, s.inReset = false → s.port = none →
    ∃ p, exec .transactionBegun s = .next { s with port := some p, pdo := some 0 } ∧
      p.phase = .command ∧ p.args = [] ∧ p.status = none ∧ p.statusOut = false ∧ p.out = [] ∧ p.begun = 0 ∧
      p.snaps = [] ∧ p.sendHeld = false) ∧
  (∀ (s : State) (p : Transaction), s.inReset = false → s.port = some p →
    (p.complete = false → p.sendHeld = false →
      ∃ t, exec .transactionCutShort s = .next t ∧ State.Ends { s with port := none, pdo := none } t) ∧
    (p.complete = false → p.sendHeld = true → s.rx.request = true → s.rx.holds = false →
      ∃ t, exec .transactionCutShort s = .next t ∧
        State.Ends { s with port := none, pdo := none, rx := { s.rx with holds := true, request := false } } t) ∧
    (p.complete = false → p.sendHeld = true → (s.rx.request = false ∨ s.rx.holds = true) →
      ∃ t, exec .transactionCutShort s = .next t ∧
        State.Ends { s with port := none, pdo := none, free := s.free + 1 } t) ∧
    (p.complete = true → argCount p.code = none →
      exec .unknownCommand s = .next { s with port := none, pdo := none })) ∧
  (∀ s : State, s.closePort = { s with port := none, pdo := none })

/-! ## Host commands at the rise of select (R160) -/

/-- READ SETTINGS, READ NEIGHBOURS, READ STATION and CHECK READ change nothing but the port and the latest command,
whose status is that of the judgement at the rise (R160, R162, R166, R156). The rows of READ NEIGHBOURS are those of
the slots from the start slot on, wrapping in its aligned group of 8, each as its slot then stands; an empty slot's
row is all 0 (R166, R171). -/
def Obligations.ReadingCommandsChangeNothing : Prop :=
  (∀ (s : State) (p : Transaction),
    (s.closing 0x02 p → exec .readSettings s = .next (s.taken 0x02 (if s.settings.isNone then .wrongState else .ok))) ∧
    (s.closing 0x20 p → exec .readNeighbours s = .next (s.taken 0x20
      (if byteAt p.args 0 ≤ 23 ∧ 1 ≤ byteAt p.args 1 ∧ byteAt p.args 1 ≤ 8 then .ok else .badArgument))) ∧
    (s.closing 0x21 p → exec .readStation s = .next (s.taken 0x21 .ok)) ∧
    (s.closing 0x43 p → exec .checkRead s = .next (s.taken 0x43 .ok))) ∧
  (∀ (s : State) (p : Transaction) (k : Nat), p.code = 0x20 → byteAt p.args 0 ≤ 23 → k < 8 →
    ∃ slot, slot / 8 = byteAt p.args 0 / 8 ∧ slot % 8 = (byteAt p.args 0 + k) % 8 ∧ slot < 24 ∧
      (∀ r, s.rec? slot = some r → s.resultItem p k = r.row s.nowMs ∧ (r.row s.nowMs).length = 58) ∧
      (s.rec? slot = none → s.resultItem p k = List.replicate 58 0))

/-- LOAD SETTINGS (R162, R161): refused outside UNCONFIGURED and without a good address and channel; otherwise the
record is held as brought into range (log 22), the station is READY, and a gateway station's advertised cost is 0.
START (R139, R161): from READY to ACQUIRING, in ACTIVE with no report, the acquisition timer at 1,600 ms, and the
receiver listening; refused in every other station state. -/
def Obligations.LoadSettingsAndStartPrepareTheStation : Prop :=
  (∀ (s : State) (p : Transaction), s.closing 0x01 p →
    (s.station ≠ .unconfigured → exec .loadSettings s = .next (s.taken 0x01 .wrongState)) ∧
    (s.station = .unconfigured → settingsAcceptable p.args = false →
      exec .loadSettings s = .next (s.taken 0x01 .badArgument)) ∧
    (s.station = .unconfigured → settingsAcceptable p.args = true →
      exec .loadSettings s = .next
        { s.taken 0x01 (if settingsHeld p.args = settingsTaken p.args then .ok else .clamped) with
          settings := some (Settings.ofValues (settingsHeld p.args)), station := .ready,
          advCost := if (Settings.ofValues (settingsHeld p.args)).gateway then 0 else s.advCost })) ∧
  (∀ (s : State) (p : Transaction), s.closing 0x03 p →
    (s.station ≠ .ready → exec .start s = .next (s.taken 0x03 .wrongState)) ∧
    (s.station = .ready → ∃ t, exec .start s = .next t ∧
      State.Ends { s.taken 0x03 .ok with
        station := .acquiring,
        duty := { s.duty with mode := .active, acquisition := some (s.now + 1600000) } } t ∧
      (s.tx.state ≠ .sending → s.tx.ackAir = none → t.rx.state ≠ .off)))

/-- STOP (R161, R24, R42, R106, R137, R138, R157): refused in UNCONFIGURED, without effect in READY; from ACQUIRING or
ON AIR every block stops. The ring, the settings, the sequence counter, the mode and the queued reports stay. The
reports of the drain join in queue order: for each host frame its DROP report STOPPED (its slot is log 44), and none for
a transit frame (R135). That of a running check comes after them, which no rule orders: the model's deduction, log 25. -/
def Obligations.StopEndsEveryBlock : Prop :=
  (∀ (s : State) (p : Transaction), s.closing 0x04 p →
    (s.station = .unconfigured → exec .stop s = .next (s.taken 0x04 .wrongState)) ∧
    (s.station = .ready → exec .stop s = .next (s.taken 0x04 .ok)) ∧
    (s.operating = true → ∃ t, exec .stop s = .next t ∧
      t.station = .ready ∧ t.latest = some (0x04, .ok) ∧ t.settings = s.settings ∧ t.seqCounter = s.seqCounter ∧
      t.port = none ∧ t.now = s.now ∧
      t.rx = { state := .off, frame := none, holds := false, heldAtSync := false, request := false } ∧
      t.tx = { state := .idle, chosen := none, addressee := none, attempt := 0, count := none, cw := 16, guard := none,
               slotEnd := none, ends := none, ackWait := none, air := none, ackOwed := none, ackAir := none,
               beaconDue := false, reflect := none } ∧
      t.slots = List.replicate 24 none ∧ t.nextHop = none ∧
      t.advCost = (if s.cfg.gateway then 0 else 4095) ∧
      t.fwd = [] ∧ t.seen = [] ∧ t.paths = [] ∧ t.ring = s.ring ∧
      t.free = s.free + s.fwd.length + one s.rx.holds ∧
      t.duty = { s.duty with stepDown := none, nextDue := none, listen := .none, survey := 0, acquisition := none } ∧
      (s.check.state = .idle → t.check = s.check) ∧
      (s.check.state ≠ .idle → s.check.record.isSome = true →
        t.check = { s.check with state := .idle, endCause := .stationStopped }) ∧
      (s.check.state = .idle → t.queue = (drainReports s.fwd s).queue) ∧
      (∀ c, s.check.state ≠ .idle → s.check.record = some c →
        t.queue = (State.putReport c.peer (some c.slot) (.check .stationStopped c.countCode c.settled s.check.live)
          (drainReports s.fwd s)).queue) ∧
      (s.fwd = [] → s.check.state = .idle → t.queue = s.queue) ∧
      t.attnLow = t.attention)) ∧
  (∀ (e : Entry) (l : List Entry) (a : State), drainReports [] a = a ∧
    (∀ tag, e.tag = some tag →
      drainReports (e :: l) a = drainReports l (a.putReport e.dest none (.drop 1 tag .stopped e.seq))) ∧
    (e.tag = none → drainReports (e :: l) a = drainReports l a))

/-- SEND at the rise (R121, R122, R160, R163): one that holds its buffer enters at the tail of the forward queue with
the counter's value as its sequence, the counter advances, and it is activity; a refused one is recorded with the
status it was refused with and has no effect. -/
def Obligations.SendEntersTheForwardQueue : Prop :=
  ∀ (s : State) (p : Transaction), s.closing 0x10 p →
    (∀ st, p.sendHeld = false → p.status = some st → exec .send s = .next (s.taken 0x10 st)) ∧
    (p.sendHeld = true → ∃ e t, exec .send s = .next { t with latest := some (0x10, .ok) } ∧
      e.origin = s.cfg.address ∧ e.dest.toNat = arg16 p.args 0 % 4096 ∧ e.seq = s.seqCounter ∧ e.hop = s.cfg.hopLimit ∧
      (∃ tag : Word16, e.tag = some tag ∧ tag.toNat = arg16 p.args 2) ∧ e.attempts = 0 ∧ e.entered = s.nowMs ∧
      e.source = none ∧ e.payload = p.args.drop 6 ∧ e.id = s.serial ∧ e.waitDue = true ∧
      State.Ends (State.activity { s.closePort with fwd := s.fwd ++ [e], seqCounter := s.seqCounter + 1,
                                                    serial := s.serial + 1, workAvailable := true }) t)

/-- The report at a place of the queue after TAKE REPORTS: gone when it was wholly shifted out and not overwritten
since, kept with its DROP count reduced by the count read when it was overwritten, kept as it is when it was not
wholly shifted out (R165). -/
def afterTake (ns : List Snap) (k : Nat) (r : Report) : Option Report :=
  match ns[k]? with
  | some n => if n.stamp = r.stamp then none else some (afterRead n.count r)
  | none => some r

/-- TAKE FRAME at the rise (R164, R120): the oldest entry leaves when every byte of it was shifted out, and its buffer
goes to the receiver's standing request or is free; otherwise nothing changes. TAKE REPORTS at the rise (R165, R168):
each report read whole and not overwritten leaves, the others keep their order, a DROP report that was overwritten with
its count reduced by the count read (log 18); the marker is cleared when its byte was shifted out and no report was
discarded since; ATTN_N follows. An item is shifted out when none of its bytes is left to go; the port notes of each
report, as its first byte goes, its entry in the queue and its DROP count. -/
def Obligations.TakeCommandsRemoveWhatWasReadWhole : Prop :=
  (∀ (s : State) (p : Transaction), s.closing 0x11 p →
    (s.ring = [] → exec .takeFrame s = .next (s.taken 0x11 .empty)) ∧
    (s.ring ≠ [] → p.wholeItems = 0 → exec .takeFrame s = .next (s.taken 0x11 .ok)) ∧
    (∀ d rest, s.ring = d :: rest → 0 < p.wholeItems → s.rx.request = true → s.rx.holds = false →
      ∃ t, exec .takeFrame s = .next t ∧
        State.Ends { s.taken 0x11 .ok with ring := rest, rx := { s.rx with holds := true, request := false } } t) ∧
    (∀ d rest, s.ring = d :: rest → 0 < p.wholeItems → (s.rx.request = false ∨ s.rx.holds = true) →
      ∃ t, exec .takeFrame s = .next t ∧
        State.Ends { s.taken 0x11 .ok with ring := rest, free := s.free + 1 } t)) ∧
  (∀ (s : State) (p : Transaction), s.closing 0x12 p →
    let a : State := { s.taken 0x12 (s.judge 0x12 p.args) with
      reports := s.reports.zipIdx.filterMap fun rk => afterTake (p.snaps.take (p.wholeItems - 1)) rk.2 rk.1,
      overrun := if 0 < p.begun ∧ s.discards = p.discardsAt then false else s.overrun }
    exec .takeReports s = .next { a with attnLow := a.attention }) ∧
  (∀ (s : State) (t : Transaction) (k : Nat),
    (t.out = [] → t.wholeItems = t.begun) ∧ (t.out ≠ [] → t.wholeItems = t.begun - 1) ∧
    ((t.code ≠ 0x12 ∨ k = 0) → s.snapOf t k = []) ∧
    (∀ r, t.code = 0x12 → s.reports[k]? = some r → s.snapOf t (k + 1) =
      [{ stamp := r.stamp, count := match r.body with | .drop n _ _ _ => n | _ => 0 }])) ∧
  (∀ (n : Nat) (r : Report),
    (∀ m g k v, r.body = .drop m g k v → afterRead n r = { r with body := .drop (m - n) g k v }) ∧
    ((∀ m g k v, r.body ≠ .drop m g k v) → afterRead n r = r))

/-- RESEED (R73 to R75, R86, R88, R96, R115): its tests in order; taken OK, the record's baseline is its filtered
margin and its fade part CLEAR, with a FADE report RESEEDED by HOST. Where the record was CLEAR nothing else of it
changes. Otherwise the change into CLEAR starts a trim where the record is UP, its trim IDLE and X outside the window,
and leaves the trim part as it was where not, r_used following; the costs are recomputed, and the next hop is
reselected, with a ROUTE report when it or the advertised cost changed. No other slot changes, and nothing else but
what ends every command. -/
def Obligations.ReseedRebuildsTheBaseline : Prop :=
  ∀ (s : State) (p : Transaction), s.closing 0x30 p →
    (23 < byteAt p.args 0 → exec .reseed s = .next (s.taken 0x30 .badArgument)) ∧
    (byteAt p.args 0 ≤ 23 → s.rec? (byteAt p.args 0) = none → exec .reseed s = .next (s.taken 0x30 .noSuch)) ∧
    (∀ r, byteAt p.args 0 ≤ 23 → s.rec? (byteAt p.args 0) = some r → (r.link = .offering ∨ r.link = .lost) →
      exec .reseed s = .next (s.taken 0x30 .wrongState)) ∧
    (∀ r, byteAt p.args 0 ≤ 23 → s.rec? (byteAt p.args 0) = some r → (r.link = .heard ∨ r.link = .up) →
      let starts := r.link = .up ∧ r.trim.state = .idle ∧
        ∃ E, r.trim.echo = some E ∧ (s.cfg.hTrim : Int) < |(E : Int) - 2 * (31 - (r.trim.step : Int)) - s.cfg.mTgt|
      let clear : Fade := { state := .clear, count := 0, start := none, maxDef := 0, shadow := false, brief := none,
                            settle := none }
      let a : State := State.announceFade (byteAt p.args 0) r.fade (State.putReport r.peer (some (byteAt p.args 0))
        (.fade .reseeded .host (if r.fade.state.held then s.nowMs - r.fade.start.getD s.nowMs else 0) r.fade.maxDef
          r.F r.F) (s.closePort.setSlot (byteAt p.args 0) (some { r with L := r.F, fade := clear })))
      ∃ t r', exec .reseed s = .next t ∧ State.Ends { a with latest := some (0x30, .ok) } t ∧
        t.host = (s.taken 0x30 .ok).host ∧ t.duty = s.duty ∧ t.check = s.check ∧
        t.relayed = s.relayed ∧
        (t.rec? (byteAt p.args 0)).map Record.uncounted = some r'.uncounted ∧ r'.F = r.F ∧ r'.L = r.F ∧
        r'.fade = clear ∧
        (r.fade.state = .clear → r.fade.shadow = false → r' = { r with L := r.F, fade := r'.fade }) ∧
        (r.fade.state ≠ .clear → r'.trim.rUsed = rateUsed s.cfg r' ∧ r'.costed s.cfg = r' ∧
          (starts → r'.trim = { r.trim.started s.cfg s.now with rUsed := rateUsed s.cfg r' }) ∧
          (¬starts → r'.trim = { r.trim with rUsed := rateUsed s.cfg r' }) ∧
          r' = { r with L := r.F, fade := r'.fade, trim := r'.trim, linkCost := r'.linkCost, pathCost := r'.pathCost,
                        eligible := r'.eligible }) ∧
        (∀ j, j ≠ byteAt p.args 0 → (t.rec? j).map Record.uncounted = (s.rec? j).map Record.uncounted) ∧
        State.Reported s t r.peer (some (byteAt p.args 0))
          (.fade .reseeded .host (if r.fade.state.held then s.nowMs - r.fade.start.getD s.nowMs else 0) r.fade.maxDef
            r.F r.F) ∧
        State.Reselects 1 s t (byteAt p.args 0) r r')

/-- FORGET (R39): its tests in order; taken OK, the record is removed with cause FORGOTTEN in whatever link state it
is, and every HEARD record's candidacy is assessed (R46). The removal of a record, for any cause (R38, R36, R41, R133,
R136, R153, R157): its slot is empty and no other record changes, but for none; a NEIGHBOUR report REMOVED carries the
cause; queued frames it was the source of have none; the next hop is reselected; for an UP record no return path leads
through it, a check on it ends LINK LOST, and a REFLECT for it is withdrawn unless it is on air (log 34). The station,
the ring, the seen list and the duty state are as before. -/
def Obligations.ForgetRemovesTheRecord : Prop :=
  (∀ (s : State) (p : Transaction), s.closing 0x31 p →
    (23 < byteAt p.args 0 → exec .forget s = .next (s.taken 0x31 .badArgument)) ∧
    (byteAt p.args 0 ≤ 23 → s.rec? (byteAt p.args 0) = none → exec .forget s = .next (s.taken 0x31 .noSuch)) ∧
    (∀ r, byteAt p.args 0 ≤ 23 → s.rec? (byteAt p.args 0) = some r →
      ∃ t, exec .forget s = .next { t with latest := some (0x31, .ok) } ∧
        State.Ends (State.assessAll (State.removeRecord (byteAt p.args 0) .forgotten s.closePort)) t)) ∧
  (∀ (s : State) (i : Nat) (cause : LinkCause) (r : Record), s.rec? i = some r →
    let t := s.removeRecord i cause
    let gone : State := { State.putReport r.peer (some i) (.neighbour .removed cause none) (s.setSlot i none) with
      fwd := s.fwd.map fun e => if e.source = some i then { e with source := none } else e,
      workAvailable := true }
    t.host = s.host ∧ t.duty = s.duty ∧ t.ring = s.ring ∧ t.seen = s.seen ∧ t.free = s.free ∧ t.rx = s.rx ∧
    (∀ j, t.rec? j = if j = i then none else s.rec? j) ∧
    t.fwd = s.fwd.map (fun e => if e.source = some i then { e with source := none } else e) ∧
    t.workAvailable = true ∧
    State.Reported s t r.peer (some i) (.neighbour .removed cause none) ∧
    t.route = (s.setSlot i none).reselect.route ∧
    (r.link ≠ .up → t = gone.reselect ∧ t.paths = s.paths ∧ t.check = s.check ∧ t.tx = s.tx) ∧
    (r.link = .up → State.LinkEnds s gone t i r.peer))

/-- CHECK START (R150, R151): its tests in order; taken OK, the check record is made with a base below 32,768 that no
rule fixes, the live counters are 0, and the first probe, number 0, is made ready at once. Its arguments are in order
with a slot of 0 to 23, a count code of 0 to 5, a length of 16 to 1,024, a pattern code of 0 to 2 and a counter mode of
0 or 1 (R150, 12_formats). -/
def Obligations.CheckStartMakesTheFirstProbeReady : Prop :=
  (∀ (s : State) (p : Transaction), s.closing 0x40 p →
    (checkArgsOk p.args = false → exec .checkStart s = .next (s.taken 0x40 .badArgument)) ∧
    (checkArgsOk p.args = true → s.check.state ≠ .idle → exec .checkStart s = .next (s.taken 0x40 .busy)) ∧
    (checkArgsOk p.args = true → s.check.state = .idle → s.rec? (byteAt p.args 0) = none →
      exec .checkStart s = .next (s.taken 0x40 .noSuch)) ∧
    (∀ r, checkArgsOk p.args = true → s.check.state = .idle → s.rec? (byteAt p.args 0) = some r →
      (r.link ≠ .up ∨ r.terms = none ∨ ∃ m, r.terms = some m ∧ m.peerReflects = false) →
      exec .checkStart s = .next (s.taken 0x40 .wrongState)) ∧
    (∀ r m, checkArgsOk p.args = true → s.check.state = .idle → s.rec? (byteAt p.args 0) = some r → r.link = .up →
      r.terms = some m → m.peerReflects = true → m.maxPayload < arg16 p.args 2 →
      exec .checkStart s = .next (s.taken 0x40 .badArgument)) ∧
    (∀ r m, checkArgsOk p.args = true → s.check.state = .idle → s.rec? (byteAt p.args 0) = some r → r.link = .up →
      r.terms = some m → m.peerReflects = true → arg16 p.args 2 ≤ m.maxPayload →
      ∃ c t, exec .checkStart s = .next t ∧ c.base < 32768 ∧ c.slot = byteAt p.args 0 ∧ c.peer = r.peer ∧
        c.countCode = byteAt p.args 1 ∧ c.length = arg16 p.args 2 ∧ some c.pattern = Pattern.ofCode (byteAt p.args 4) ∧
        c.fixed = p.args.getD 5 0 ∧ some c.mode = CounterMode.ofCode (byteAt p.args 6) ∧ c.next = 1 ∧ c.settled = 0 ∧
        c.lastEnd = none ∧
        State.Ends { s.taken 0x40 .ok with
          draws := s.draws + 1, serial := s.serial + 1, workAvailable := true,
          check := { s.check with state := .pending 0 s.serial s.now, record := some c,
                                  live := { sent := 0, returned := 0, errored := 0, bits := 0, overflow := 0 } } } t)) ∧
  (∀ args : List Byte, checkArgsOk args = true ↔ byteAt args 0 ≤ 23 ∧ byteAt args 1 ≤ 5 ∧ 16 ≤ arg16 args 2 ∧
    arg16 args 2 ≤ 1024 ∧ byteAt args 4 ≤ 2 ∧ byteAt args 6 ≤ 1) ∧
  (Pattern.ofCode 0 = some .prbs ∧ Pattern.ofCode 1 = some .fixed ∧ Pattern.ofCode 2 = some .incrementing ∧
    CounterMode.ofCode 0 = some .saturate ∧ CounterMode.ofCode 1 = some .wrap)

/-- CHECK STOP ends a running check STOPPED, with its CHECK report, and does nothing while IDLE (R157); CHECK FREEZE
copies the counters and the record's values into the snapshot, clears the live counters when asked to, and changes
neither the record nor the phase (R156; the slot byte with no check record is the model's choice, log 20). -/
def Obligations.CheckStopAndFreeze : Prop :=
  ∀ (s : State) (p : Transaction),
    (s.closing 0x41 p → s.check.state = .idle → ∃ t, exec .checkStop s = .next t ∧ State.Ends (s.taken 0x41 .ok) t) ∧
    (∀ c, s.closing 0x41 p → s.check.state ≠ .idle → s.check.record = some c →
      ∃ t, exec .checkStop s = .next t ∧ t.check = { s.check with state := .idle, endCause := .stopped } ∧
        State.Ends { State.putReport c.peer (some c.slot) (.check .stopped c.countCode c.settled s.check.live)
          { s.closePort with check := { s.check with state := .idle, endCause := .stopped } } with
          latest := some (0x41, .ok) } t ∧
        State.Reported s t c.peer (some c.slot) (.check .stopped c.countCode c.settled s.check.live)) ∧
    (s.closing 0x42 p → 1 < byteAt p.args 0 → exec .checkFreeze s = .next (s.taken 0x42 .badArgument)) ∧
    (s.closing 0x42 p → byteAt p.args 0 ≤ 1 →
      ∃ n : Snapshot, n.counters = s.check.live ∧ n.running = decide (s.check.state ≠ .idle) ∧
        (∀ c, s.check.record = some c → n.slot = c.slot ∧ n.peer = c.peer ∧ n.base = c.base ∧ n.mode = c.mode ∧
          n.settled = c.settled) ∧
        (s.check.record = none → n.slot = 0xFF ∧ n.peer = 0 ∧ n.base = 0 ∧ n.mode = .saturate ∧ n.settled = 0) ∧
        exec .checkFreeze s = .next { s.taken 0x42 .ok with
          check := { s.check with snapshot := n,
                                  live := if byteAt p.args 0 = 1 then
                                      { sent := 0, returned := 0, errored := 0, bits := 0, overflow := 0 }
                                    else s.check.live } })

/-! ## The air (01_the_air_channel) -/

/-- The carrier and the receiver (R3, R4, R5, R10; which row carries a fall is the model's reading, log 10):
MEDIUM_BUSY_CHANGE moves the carrier, but for a fall that ends a frame; a sync word in HUNT enters HEADER and notes
whether the buffer is held (R13, log 36); a fall of carrier in HEADER, or in BODY before the stated end, drops the
frame with nothing handed on and returns to HUNT, the held buffer staying. The receiver is asked to listen while the
station operates and is ACQUIRING, or not in DOZE, or in a listen period, or its sender contends or awaits an ACK (R3,
R143); the medium is busy throughout a frame and as the carrier in HUNT (R4). -/
def Obligations.ReceiverFollowsTheCarrier : Prop :=
  (∀ s : State, s.inReset = false →
    (∃ t, exec (.mediumBusyChange true) s = .next t ∧ State.Ends { s with carrier := true } t) ∧
    (s.rx.state ≠ .header → s.rx.state ≠ .body →
      ∃ t, exec (.mediumBusyChange false) s = .next t ∧ State.Ends { s with carrier := false } t) ∧
    (s.rx.state = .hunt → ∃ t, exec .syncWordFound s = .next t ∧
      State.Ends { s with rx := { s.rx with state := .header, heldAtSync := s.rx.holds } } t ∧
        t.rx.state = .header) ∧
    (s.rx.state = .header → ∃ t, exec .headerAbandoned s = .next t ∧
      State.Ends { s with carrier := false, rx := { s.rx with state := .hunt, frame := none } } t) ∧
    (∀ f, s.rx.state = .body → s.rx.frame = some f → s.now < f.ends →
      ∃ t, exec .frameTruncated s = .next t ∧
        State.Ends { s with carrier := false, rx := { s.rx with state := .hunt, frame := none } } t)) ∧
  (∀ s : State,
    (s.operating = true ↔ s.station = .acquiring ∨ s.station = .onAir) ∧
    (s.askedToListen = true ↔ s.operating = true ∧ (s.station = .acquiring ∨ s.duty.mode ≠ .doze ∨
      s.duty.listen ≠ .none ∨ s.tx.state = .defer ∨ s.tx.state = .backoff ∨ s.tx.state = .awaitAck)) ∧
    (s.transmitting = true ↔ s.tx.state = .sending ∨ s.tx.ackAir ≠ none) ∧
    (s.sensedIdle = true ↔ s.rx.state = .hunt ∧ s.carrier = false) ∧
    (s.rx.state = .hunt → s.mediumBusy = s.carrier) ∧
    ((s.rx.state = .header ∨ s.rx.state = .body ∨ s.rx.state = .discard) → s.mediumBusy = true))

/-- HEADER_RECEIVED (R6, R7, R8, R9, R11): a header that fails its tests returns the receiver to HUNT. An accepted one
is kept into BODY when it is no frame of this station's own and kind, destination and station state agree, and waits in
DISCARD otherwise, to the end that its length and class give; its raw margin is clamped to 0..255, and a kept body is
stored only in a buffer held since the sync word (R13, log 36). A header is rejected exactly when its check fails, its
kind is none of the six, its length is above 1,100, an ACK has a body or another kind has none, or its sender is no
station (R6). Each field of an accepted header is read from its place, the bits between rate class and length
disregarded and an ACK status other than 0 read as FULL (12_formats). The time of a body of n bytes is 8 n over the
rate of its class, rounded up (R1). -/
def Obligations.HeaderIsRejectedKeptOrDiscarded : Prop :=
  (∀ (s : State) (bs : List Byte) (raw : Int), s.inReset = false → s.rx.state = .header → bs.length = 10 →
    (Header.parse bs = none → ∃ t, exec (.headerReceived bs raw) s = .next t ∧
      State.Ends { s with rx := { s.rx with state := .hunt, frame := none } } t) ∧
    (∀ h, Header.parse bs = some h → ∃ (m : Nat) (keep : Bool) (t : State),
      exec (.headerReceived bs raw) s = .next t ∧ (m : Int) = max 0 (min 255 raw) ∧
      (keep = true ↔ h.src ≠ s.cfg.address ∧
        (h.kind = .beacon ∧ h.dest = 0xFFF#12 ∧ s.operating = true ∨
          h.kind ≠ .beacon ∧ s.station = .onAir ∧
            (h.dest = s.cfg.address ∨ h.dest = 0xFFE#12 ∧ s.cfg.gateway = true))) ∧
      State.Ends { s with rx := { s.rx with
        state := if keep then .body else .discard,
        frame := some { header := h, raw := m, ends := s.now + bodyTime h.cls h.len,
                        store := keep && s.rx.holds && s.rx.heldAtSync,
                        own := decide (h.src = s.cfg.address) } } } t)) ∧
  (∀ bs : List Byte, bs.length = 10 →
    let kind := byteAt bs 0 / 16
    let len := (byteAt bs 5 % 8) * 256 + byteAt bs 6
    let src := (byteAt bs 2 % 16) * 256 + byteAt bs 3
    (Header.parse bs = none ↔
      checkPasses bs = false ∨ kind = 0 ∨ 6 < kind ∨ 1100 < len ∨ (kind = 3 ∧ len ≠ 0) ∨ (kind ≠ 3 ∧ len = 0) ∨
        src = 0 ∨ 0xFFD < src) ∧
    (∀ h, Header.parse bs = some h →
      kind = (match h.kind with | .beacon => 1 | .data => 2 | .ack => 3 | .offer => 4 | .probe => 5 | .reflect => 6) ∧
      (h.full = true ↔ kind = 3 ∧ byteAt bs 0 % 16 ≠ 0) ∧ h.dest.toNat = byteAt bs 1 * 16 + byteAt bs 2 / 16 ∧
      h.src.toNat = src ∧ h.step = byteAt bs 4 ∧ h.cls = byteAt bs 5 / 32 ∧ h.len = len ∧ h.echo = byteAt bs 7)) ∧
  (∀ c n : Nat, c < 8 →
    let rate := [5, 8, 12, 16, 22, 30, 40, 48].getD c 5
    8 * n ≤ rate * bodyTime c n ∧ rate * bodyTime c n < 8 * n + rate)

/-- FRAME_END and DISCARD_END (R8, R9, R11, R12, R140; the place of the activity is the model's choice, log 13): the
receiver leaves the frame; the observation goes to the Table, the Trim Unit and the Margin Tracker, with the echo that
the frame carries (its place is the model's choice, log 37 and log 42); a kept DATA, OFFER, PROBE or REFLECT is
activity; then the body goes to the block of its kind. A discarded frame hands on its observation alone, and one of this
station's own hands on nothing. At the end every HEARD record's candidacy is assessed (R46; for all slots once the
frame's page is taken: log 32). The body of a kept frame that was received header-only or failed its payload check does
nothing, but for a header-only DATA frame, which the receiver answers FULL after the short gap unless it was sent to
0xFFE or 0xFFF, and for a kept beacon, whose sender's window opens or closes as its record shows (R9, R21, R146). -/
def Obligations.FrameEndsHandOnInOrder : Prop :=
  (∀ (s : State) (f : RxFrame) (body : List Byte), s.inReset = false → s.rx.frame = some f → f.ends ≤ s.now →
    let s0 : State := { s with rx := { s.rx with state := .hunt, frame := none } }
    let seen := s0.observe f (admitsWith f body) (f.echoCarried s.cfg.address body)
    let busy := f.header.kind = .data ∨ f.header.kind = .offer ∨ f.header.kind = .probe ∨ f.header.kind = .reflect
    (s.rx.state = .body → body.length = f.header.len → busy →
      ∃ t, exec (.frameEnd body) s = .next t ∧
        State.Ends (State.assessAll (State.handBody f seen.2 body seen.1.activity)) t) ∧
    (s.rx.state = .body → body.length = f.header.len → ¬busy →
      ∃ t, exec (.frameEnd body) s = .next t ∧
        State.Ends (State.assessAll (State.handBody f seen.2 body seen.1)) t) ∧
    (s.rx.state = .discard → f.own = false →
      ∃ t, exec .discardEnd s = .next t ∧ State.Ends (State.assessAll (s0.observe f none (f.echoCarried s.cfg.address [])).1) t) ∧
    (s.rx.state = .discard → f.own = true →
      ∃ t, exec .discardEnd s = .next t ∧ State.Ends (State.assessAll s0) t)) ∧
  (∀ (s : State) (f : RxFrame) (slot : Option Nat) (body : List Byte),
    (f.store = false ∨ checkPasses body = false) →
    ((f.header.kind = .offer ∨ f.header.kind = .probe ∨ f.header.kind = .reflect) → s.handBody f slot body = s) ∧
    (f.header.kind = .data → f.store = true → s.handBody f slot body = s) ∧
    (f.header.kind = .data → f.store = false → (f.header.dest = 0xFFE#12 ∨ f.header.dest = 0xFFF#12) →
      s.handBody f slot body = s) ∧
    (f.header.kind = .data → f.store = false → f.header.dest ≠ 0xFFE#12 → f.header.dest ≠ 0xFFF#12 →
      s.handBody f slot body =
        { s with tx := { s.tx with ackOwed := some { dest := f.header.src, full := true, due := s.now + 16 } } }) ∧
    (f.header.kind = .beacon → slot = none → s.handBody f slot body = s) ∧
    (∀ i r, f.header.kind = .beacon → slot = some i → s.rec? i = some r →
      (r.advert.mode ≠ .doze → s.handBody f slot body = s.setSlot i (some { r with windowEnd := none })) ∧
      (r.advert.mode = .doze → s.handBody f slot body =
        { s.setSlot i (some { r with windowEnd := some (s.now + 1000 * r.advert.window) }) with
          workAvailable := true })))

/-- What the Table, the Trim Unit and the Margin Tracker do with the observation of a frame (R12, R26 to R30, R62, R92,
R94; log 25, log 28; the echo before the measurement is the model's choice, log 37). A known sender is refreshed, and a
LOST one is HEARD again with its streaks 0, a report and the measurement as a seed. An unknown sender whose frame may
admit it, at or above the floor, is admitted HEARD with the values of R27 in the lowest empty slot, or in that of the
HEARD or LOST record with the oldest last-heard time, the lower slot among equals, which is removed EVICTED; with every
record OFFERING or UP it is ignored. Then comes the echo that the frame carries, then the measurement, so that a change
into CLEAR finds the new E. A unicast header to this station carries its echo field, one to another address none. A kept
BEACON admits with its own advertisement and an OFFER with that of R27, and only with a body stored and good. A sender
is known by the record that holds its address, and a record is written in its slot alone. -/
def Obligations.HearingAPeerKeepsTheTable : Prop :=
  (∀ (s : State) (f : RxFrame) (w : Option Advert),
    let src := f.header.src
    let m := normalise f.raw f.header.step
    (∀ i r, s.findPeer src = some i → s.rec? i = some r →
      (r.link ≠ .lost → s.hear f w =
        (s.setSlot i (some { r with lastHeard := s.nowMs, silence := 0 }), some (i, false))) ∧
      (r.link = .lost → s.hear f w =
        ({ State.putReport r.peer (some i) (.neighbour .heard .none (some .heard)) (s.setSlot i
            (some { r with lastHeard := s.nowMs, silence := 0, link := .heard, failStreak := 0, notEchoed := 0 })) with
            workAvailable := true }, some (i, true)))) ∧
    (s.findPeer src = none → (w = none ∨ m < s.cfg.floor) → s.hear f w = (s, none)) ∧
    (∀ a, s.findPeer src = none → w = some a → s.cfg.floor ≤ m →
      let new : Record :=
        { peer := src, link := .heard, lastHeard := s.nowMs, silence := 0, advert := a, windowEnd := none, F := 16 * m,
          L := 16 * m,
          fade := { state := .clear, count := 0, start := none, maxDef := 0, shadow := false, brief := none,
                    settle := none },
          trim := { echo := none, step := 31, state := .idle, count := 0, timer := none, clamped := false, last := none,
                    rUsed := 0 },
          notEchoed := 0, terms := none, linkCost := 64, pathCost := min 4095 (a.cost + 64), eligible := false,
          exch := none, holdoff := none, initWait := none, failStreak := 0, hopDrops := 0, loopDrops := 0,
          pathDrops := 0 }
      let joins (i : Nat) (u : State) : State :=
        { State.putReport src (some i) (.neighbour .admitted .none (some .heard)) (u.setSlot i (some new)) with
          workAvailable := true }
      let full := ∀ k, k < s.slots.length → ∃ r, s.rec? k = some r
      (∀ i, i < s.slots.length → s.rec? i = none → (∀ k, k < i → ∃ r, s.rec? k = some r) →
        s.hear f w = (joins i s, some (i, true))) ∧
      (full → (∀ k r, s.rec? k = some r → r.link = .offering ∨ r.link = .up) → s.hear f w = (s, none)) ∧
      (∀ i r, full → s.rec? i = some r → (r.link = .heard ∨ r.link = .lost) →
        (∀ k q, s.rec? k = some q → (q.link = .heard ∨ q.link = .lost) →
          r.lastHeard < q.lastHeard ∨ r.lastHeard = q.lastHeard ∧ i ≤ k) →
        s.hear f w = (joins i (s.removeRecord i .evicted), some (i, true)))) ∧
    (∀ t, s.hear f w = (t, none) → ∀ echo, s.observe f w echo = (t, none)) ∧
    (∀ t i seed, s.hear f w = (t, some (i, seed)) →
      s.observe f w none = (t.measure i m seed, some i) ∧
      ∀ e, s.observe f w (some e) = ((t.takeEcho i e).measure i m seed, some i))) ∧
  (∀ (f : RxFrame) (own : Addr) (body : List Byte), f.header.kind ≠ .beacon →
    (f.header.dest = own → f.echoCarried own body = some f.header.echo) ∧
    (f.header.dest ≠ own → f.echoCarried own body = none)) ∧
  (∀ (f : RxFrame) (body : List Byte),
    let good := f.store = true ∧ checkPasses body = true
    (good → f.header.kind = .offer → admitsWith f body =
      some { cost := 4095, nextHop := 0, mode := .active, window := 25, gateway := false, room := true }) ∧
    (∀ a l, good → f.header.kind = .beacon → parseBeacon body = some (a, l) → admitsWith f body = some a) ∧
    ((¬good ∨ f.header.kind = .beacon ∧ parseBeacon body = none ∨ f.header.kind ≠ .beacon ∧ f.header.kind ≠ .offer) →
      admitsWith f body = none)) ∧
  (∀ (s : State) (a : Addr) (i : Nat),
    (s.findPeer a = none ↔ ∀ k r, s.rec? k = some r → r.peer ≠ a) ∧
    (s.findPeer a = some i ↔ (∃ r, s.rec? i = some r ∧ r.peer = a) ∧ ∀ k r, s.rec? k = some r → r.peer = a → i ≤ k) ∧
    (∀ o, i < s.slots.length → { s.setSlot i o with slots := s.slots } = s ∧
      ∀ k, (s.setSlot i o).rec? k = if k = i then o else s.rec? k)) ∧
  (∀ (s : State) (i : Nat), (∀ r, s.rec? i = some r ↔ s.slots[i]? = some (some r)) ∧
    (s.rec? i = none ↔ ∀ r, s.slots[i]? ≠ some (some r)))

/-- What a good beacon from a sender with a record does (R31, R35, R92, R110, R115, R146). The order of its effects is
the model's choice: the echo with the observation (log 42), then the advertisement, the not-echoed streak and the peer
window (log 37). Its contents replace the record's advertisement, with the costs that follow, and the next hop is
reselected when the path cost or the eligible flag changed; a peer that was not listening and now is makes work
available (log 31). The not-echoed streak of an UP record returns to 0 when the echo list names this station, and rises
otherwise; at 3 the link is LOST NOT ECHOED. The echo it carries is the margin listed, that of the first entry where two
name this station (log 41); a body not stored, bad or malformed, or a list that does not name this station, carries
none. Last, the peer's window opens for W_listen where the advertisement shows DOZE, and is absent otherwise. A BEACON
body is malformed by its length, its echo count, its mode code or its window, and is otherwise read field by field, a
cost above 4,095 as 4,095 and a flag other than 0 as yes (12_formats). -/
def Obligations.BeaconBodiesAreTakenApart : Prop :=
  (∀ (s : State) (i : Nat) (r : Record), s.rec? i = some r →
    (∀ a : Advert,
      let r' := Record.costed s.cfg { r with advert := a }
      let u := s.setSlot i (some r')
      let v := if r'.pathCost = r.pathCost ∧ r'.eligible = r.eligible then u else u.reselect
      ((r.advert.mode ≠ .doze ∨ r.windowEnd.isSome = true ∨ a.mode = .doze) → s.replaceAdvert i a = v) ∧
      (r.advert.mode = .doze → r.windowEnd = none → a.mode ≠ .doze →
        s.replaceAdvert i a = { v with workAvailable := true })) ∧
    (r.link ≠ .up → ∀ b, s.countEchoed i b = s) ∧
    (r.link = .up →
      let raised := s.setSlot i (some { r with notEchoed := r.notEchoed + 1 })
      s.countEchoed i true = s.setSlot i (some { r with notEchoed := 0 }) ∧
      (r.notEchoed + 1 < 3 → s.countEchoed i false = raised) ∧
      (3 ≤ r.notEchoed + 1 → s.countEchoed i false = raised.loseLink i .notEchoed)) ∧
    (∀ (a : Advert) (l : List EchoEntry),
      ((∀ e ∈ l, e.peer ≠ s.cfg.address) → s.takeBeacon i a l = (s.replaceAdvert i a).countEchoed i false) ∧
      (∀ l1 e l2, l = l1 ++ e :: l2 → e.peer = s.cfg.address → (∀ q ∈ l1, q.peer ≠ s.cfg.address) →
        s.takeBeacon i a l = (s.replaceAdvert i a).countEchoed i true)) ∧
    (r.advert.mode = .doze → s.openPeerWindow i =
      { s.setSlot i (some { r with windowEnd := some (s.now + 1000 * r.advert.window) }) with workAvailable := true }) ∧
    (r.advert.mode ≠ .doze → s.openPeerWindow i = s.setSlot i (some { r with windowEnd := none })) ∧
    (∀ (f : RxFrame) (body : List Byte), f.header.kind = .beacon → f.store = true → checkPasses body = true →
      (∀ a l, parseBeacon body = some (a, l) → s.handBody f (some i) body = (s.takeBeacon i a l).openPeerWindow i) ∧
      (parseBeacon body = none → s.handBody f (some i) body = s.openPeerWindow i) ∧ s.handBody f none body = s)) ∧
  (∀ (f : RxFrame) (own : Addr) (body : List Byte), f.header.kind = .beacon →
    ((f.store = false ∨ checkPasses body = false ∨ parseBeacon body = none) → f.echoCarried own body = none) ∧
    ∀ a l, f.store = true → checkPasses body = true → parseBeacon body = some (a, l) →
      ((∀ e ∈ l, e.peer ≠ own) → f.echoCarried own body = none) ∧
      (∀ l1 e l2, l = l1 ++ e :: l2 → e.peer = own → (∀ q ∈ l1, q.peer ≠ own) →
        f.echoCarried own body = some e.margin)) ∧
  (∀ body : List Byte,
    let b (i : Nat) : Nat := byteAt body i
    let window := b 5 * 256 + b 6
    (parseBeacon body = none ↔
      body.length ≠ 12 + 4 * b 9 ∨ 12 < b 9 ∨ 2 < b 4 ∨ window < 10 ∨ 100 < window) ∧
    (∀ a l, parseBeacon body = some (a, l) →
      a.cost = min 4095 (b 0 * 256 + b 1) ∧ a.nextHop.toNat = (b 2 * 256 + b 3) % 4096 ∧
      b 4 = (match a.mode with | .active => 0 | .quiet => 1 | .doze => 2) ∧ a.window = window ∧
      (a.gateway = true ↔ b 7 ≠ 0) ∧ (a.room = true ↔ b 8 ≠ 0) ∧ l.length = b 9 ∧
      ∀ k e, l[k]? = some e →
        e.peer.toNat = (b (10 + 4 * k) * 256 + b (11 + 4 * k)) % 4096 ∧ e.margin = b (12 + 4 * k)))

/-- What the Relay Unit does with a DATA body that passed its check (R124, R125, R126, R131): not taken from a sender
that is not UP or when malformed; a loop and a used-up hop limit counted and answered ACCEPTED; a duplicate refreshed;
a frame for this station delivered, or answered FULL with the ring at 12; any other relayed, or answered FULL with no
room. The pair of a frame delivered, relayed or dropped at its hop limit is inserted in the seen list. The second part
of the answer is the ACK asked for: none, ACCEPTED (false) or FULL (true). The seen list and the return path table as
they learn (R131, R132): a repeat moves to the newest position, a new pair pushes out the oldest of 32; a known
destination is refreshed, a new one joins, and in a full table it replaces the entry with the oldest refresh time, the
lower via slot at equal times (log 47 where those are equal too). Times are ms of the running clock. The body of a kept
and stored DATA frame that passed its check is taken so for a sender with a record, and the ACK asked for is owed to it
16 µs on, but for a frame sent to 0xFFE or 0xFFF (R12, R21). A body is malformed by its length, its origin or its final
destination, and is otherwise read field by field, a hop limit above 15 as 15 (R124, R170). -/
def Obligations.RelayUnitTakesData : Prop :=
  (∀ (s : State) (i : Nat) (r : Record) (d : DataBody) (body : List Byte), s.rec? i = some r → s.seen.length ≤ 32 →
    s.rx.holds = true →
    let here := d.dest = s.cfg.address ∨ d.dest = 0xFFE#12 ∧ s.cfg.gateway = true
    let fresh := d.origin ≠ s.cfg.address ∧ (d.origin, d.seq) ∉ s.seen
    (r.link ≠ .up → s.takeData i body = (s, none)) ∧
    (parseData body = none → s.takeData i body = (s, none)) ∧
    (r.link = .up → parseData body = some d →
      (d.origin = s.cfg.address →
        s.takeData i body = (s.setSlot i (some { r with loopDrops := min 65535 (r.loopDrops + 1) }), some false)) ∧
      (d.origin ≠ s.cfg.address → (d.origin, d.seq) ∈ s.seen →
        s.takeData i body =
          ({ s with seen := s.seen.filter (fun q => decide (q ≠ (d.origin, d.seq))) ++ [(d.origin, d.seq)] },
            some false)) ∧
      (fresh → here → 12 ≤ s.ring.length → s.takeData i body = (s, some true)) ∧
      (fresh → here → s.ring.length < 12 →
        ∃ t, s.takeData i body = (t, some false) ∧ t.fwd = s.fwd ∧ t.slots = s.slots ∧ t.reports = s.reports ∧
          t.ring = s.ring ++ [{ origin := d.origin, seq := d.seq, payload := d.payload }] ∧
          t.seen = seenInsert (d.origin, d.seq) s.seen ∧ t.paths = learnPath d.origin i s.nowMs s.paths ∧
          t.workAvailable = true ∧
          (0 < s.free → t.free + 1 = s.free ∧ t.rx = { s.rx with holds := true, request := false }) ∧
          (s.free = 0 → t.free = 0 ∧ t.rx = { s.rx with holds := false, request := true }) ∧
          { t with ring := s.ring, seen := s.seen, paths := s.paths, free := s.free, rx := s.rx,
                   workAvailable := s.workAvailable } = s) ∧
      (fresh → ¬here → d.hop ≤ 1 →
        ∃ t, s.takeData i body = (t, some false) ∧ t.fwd = s.fwd ∧ t.ring = s.ring ∧ t.paths = s.paths ∧
          t.seen = seenInsert (d.origin, d.seq) s.seen ∧ t.rx = s.rx ∧
          t.slots = s.slots.set i (some { r with hopDrops := min 65535 (r.hopDrops + 1) }) ∧
          { t with seen := s.seen, slots := s.slots } = s) ∧
      (fresh → ¬here → 1 < d.hop → 40 ≤ s.fwd.length + one s.portHolds → s.takeData i body = (s, some true)) ∧
      (fresh → ¬here → 1 < d.hop → s.fwd.length + one s.portHolds < 40 →
        ∃ t e, s.takeData i body = (t, some false) ∧ t.fwd = s.fwd ++ [e] ∧ t.ring = s.ring ∧ t.slots = s.slots ∧
          e.origin = d.origin ∧ e.dest = d.dest ∧ e.seq = d.seq ∧ e.hop = d.hop - 1 ∧ e.tag = none ∧ e.attempts = 0 ∧
          e.entered = s.nowMs ∧ e.source = some i ∧ e.payload = d.payload ∧ e.id = s.serial ∧
          e.waitDue = true ∧ t.serial = s.serial + 1 ∧
          t.seen = seenInsert (d.origin, d.seq) s.seen ∧ t.paths = learnPath d.origin i s.nowMs s.paths ∧
          t.workAvailable = true ∧
          (0 < s.free → t.free + 1 = s.free ∧ t.rx = { s.rx with holds := true, request := false }) ∧
          (s.free = 0 → t.free = 0 ∧ t.rx = { s.rx with holds := false, request := true }) ∧
          { t with fwd := s.fwd, seen := s.seen, paths := s.paths, free := s.free, rx := s.rx, serial := s.serial,
                   workAvailable := s.workAvailable } = s))) ∧
  ((∀ (p : Addr × Word16) (l : List (Addr × Word16)), l.length ≤ 32 →
    (p ∈ l → seenInsert p l = l.filter (fun q => decide (q ≠ p)) ++ [p]) ∧
    (p ∉ l → l.length < 32 → seenInsert p l = l ++ [p]) ∧
    (p ∉ l → l.length = 32 → seenInsert p l = l.drop 1 ++ [p])) ∧
  (∀ (origin : Addr) (via now : Nat) (l : List ReturnPath),
    ((∃ p ∈ l, p.dest = origin) → learnPath origin via now l =
      l.map fun p => if p.dest = origin then { dest := origin, via := via, refresh := now } else p) ∧
    ((∀ p ∈ l, p.dest ≠ origin) → l.length < 32 →
      learnPath origin via now l = l ++ [{ dest := origin, via := via, refresh := now }]) ∧
    ((∀ p ∈ l, p.dest ≠ origin) → 32 ≤ l.length →
      ∃ q ∈ l, (∀ p ∈ l, q.refresh < p.refresh ∨ q.refresh = p.refresh ∧ q.via ≤ p.via) ∧
        learnPath origin via now l = l.erase q ++ [{ dest := origin, via := via, refresh := now }]))) ∧
  (∀ (s : State) (f : RxFrame) (i : Nat) (body : List Byte), f.header.kind = .data → f.store = true →
    checkPasses body = true →
    let u := s.takeData i body
    s.handBody f none body = s ∧
    ((u.2 = none ∨ f.header.dest = 0xFFE#12 ∨ f.header.dest = 0xFFF#12) → s.handBody f (some i) body = u.1) ∧
    (∀ full, u.2 = some full → f.header.dest ≠ 0xFFE#12 → f.header.dest ≠ 0xFFF#12 →
      s.handBody f (some i) body = { u.1 with tx := { u.1.tx with
        ackOwed := some { dest := f.header.src, full := full, due := u.1.now + 16 } } })) ∧
  (∀ body : List Byte,
    let b (i : Nat) : Nat := byteAt body i
    let origin := b 0 * 16 + b 1 / 16
    let dest := b 1 % 16 * 256 + b 2
    (parseData body = none ↔
      body.length < 9 ∨ 1032 < body.length ∨ origin = 0 ∨ 0xFFD < origin ∨ dest = 0 ∨ dest = 0xFFF) ∧
    (∀ d, parseData body = some d → d.origin.toNat = origin ∧ d.dest.toNat = dest ∧ d.seq.toNat = b 3 * 256 + b 4 ∧
      d.hop = min 15 (b 5) ∧ d.payload = (body.take (body.length - 2)).drop 6))

/-- The Air Sender's choice (R14 to R18, R127, R129, R130; log 15, log 27). It is made when the sender is IDLE, ON AIR,
with no own ACK on air and work available: first the due beacon; else the oldest pending control frame whose addressee
is listening, at equal ready times a page before the probe before the REFLECT and the lower slot's page first; else the
oldest DATA frame that may be sent. The queue is examined oldest first: a frame too long for its neighbour is dropped
TOO LONG, one waiting past T_wait is dropped NO PATH, one waiting less is passed over; with none to send the sender
stays IDLE. A chosen frame goes to DEFER with a count below the contention window. A frame resolves to the record of its
destination in UP, else through the return path, else, at a station that is no gateway, to the next hop. -/
def Obligations.SenderChoosesInOrder : Prop :=
  (∀ s : State,
    (s.chooses = true ↔
      s.tx.state = .idle ∧ s.station = .onAir ∧ s.tx.ackAir = none ∧ s.workAvailable = true) ∧
    (∀ c : Chosen, ∃ n, (0 < s.tx.cw → n < s.tx.cw) ∧ s.enterDefer c = { s with
      draws := s.draws + 1,
      tx := { s.tx with state := .defer, chosen := some c, count := some n, guard := none, slotEnd := none } }) ∧
    (s.tx.beaconDue = true → s.choose = s.enterDefer .beacon) ∧
    (∀ x : ControlFrame, x ∈ s.controlFrames ↔
      (∃ i r y p, s.rec? i = some r ∧ r.exch = some y ∧ y.page = some p ∧ r.listening = true ∧
        x = { ready := p.ready, rank := i, chosen := .page i p.id }) ∨
      (∃ k id ready c j r, s.check.state = .pending k id ready ∧ s.check.record = some c ∧ s.findPeer c.peer = some j ∧
        s.rec? j = some r ∧ r.link = .up ∧ r.listening = true ∧
        x = { ready := ready, rank := 24, chosen := .probe id }) ∨
      (∃ q j r, s.tx.reflect = some q ∧ s.findPeer q.prober = some j ∧ s.rec? j = some r ∧ r.link = .up ∧
        r.listening = true ∧ x = { ready := q.ready, rank := 25, chosen := .reflect q.id })) ∧
    (∀ x, s.tx.beaconDue = false → x ∈ s.controlFrames →
      (∀ y ∈ s.controlFrames, y = x ∨ x.ready < y.ready ∨ x.ready = y.ready ∧ x.rank < y.rank) →
      s.choose = s.enterDefer x.chosen) ∧
    (s.tx.beaconDue = false → s.controlFrames = [] →
      ((∀ e ∈ s.fwd, s.examine e = .waiting ∧ s.pastWait e = false) → s.choose = s) ∧
      (∀ l e u, s.fwd = l ++ e :: u → (∀ q ∈ l, s.examine q = .waiting ∧ s.pastWait q = false) →
        (∀ peer, s.examine e = .send peer → s.choose = s.enterDefer (.data e.id peer)) ∧
        ((s.fwd.map Entry.id).Nodup → s.examine e = .tooLong → s.choose = (s.dropEntry e.id .tooLong).choose) ∧
        ((s.fwd.map Entry.id).Nodup → s.examine e = .waiting → s.pastWait e = true →
          s.choose = (s.dropEntry e.id .noPath).choose))) ∧
    (∀ e : Entry,
      (s.pastWait e = true ↔ 1000 * s.cfg.tWait ≤ s.nowMs - e.entered) ∧
      (s.resolve e.dest = none → s.examine e = .waiting) ∧
      (∀ i r m, s.resolve e.dest = some i → s.rec? i = some r → r.terms = some m →
        (m.maxPayload < e.payload.length → s.examine e = .tooLong) ∧
        (e.payload.length ≤ m.maxPayload → r.advert.mode = .doze → r.windowEnd = none → s.examine e = .waiting) ∧
        (e.payload.length ≤ m.maxPayload → (r.advert.mode ≠ .doze ∨ r.windowEnd.isSome = true) →
          s.examine e = .send r.peer))) ∧
    (∀ dest : Addr,
      let direct (i : Nat) : Prop := s.findPeer dest = some i ∧ ∃ r, s.rec? i = some r ∧ r.link = .up
      (∀ i, direct i → s.resolve dest = some i) ∧
      ((∀ i, ¬direct i) →
        (∀ p, s.paths.find? (fun q => decide (q.dest = dest)) = some p → s.resolve dest = some p.via) ∧
        ((∀ p ∈ s.paths, p.dest ≠ dest) →
          (s.cfg.gateway = false → s.resolve dest = s.nextHop.map NextHop.slot) ∧
          (s.cfg.gateway = true → s.resolve dest = none))))) ∧
  (∀ r : Record, r.listening = true ↔ r.advert.mode ≠ .doze ∨ ∃ e, r.windowEnd = some e)

/-- GUARD_GAP_COMPLETE and BACKOFF_SLOT_END (R18, R19, R20): the guard gap of 40 µs leads to BACKOFF; each slot lowers
the count; a count of zero leads to the final check, which sends the frame for its airtime with the receiver OFF, or
abandons the choice with the contention window and every attempt count as they were. The frame's start raises the
attempt count of the queue entry or the page it belongs to, and no other (R19). The airtime is 44 µs and the time of
the body, 8 n over the rate of its class, rounded up (R1). -/
def Obligations.ContentionCountsDownToTheFinalCheck : Prop :=
  (∀ (s : State) (c : Chosen) (n e : Nat), s.inReset = false → s.tx.chosen = some c → e ≤ s.now →
    let s0 : State := { s with tx := { s.tx with state := .backoff, guard := none, count := some 0 } }
    let sends (l : Launch) (t : State) : Prop :=
      State.Ends (State.beginSending c l s0) t ∧ t.tx.state = .sending ∧ t.tx.chosen = some c ∧
        t.tx.air = some l.frame ∧ t.tx.addressee = l.addressee ∧ t.tx.cw = s.tx.cw ∧
        t.tx.ends = some (s.now + airtime l.cls l.frame.body.length) ∧ t.rx.state = .off ∧ t.rx.frame = none
    (s.tx.state = .defer → s.tx.guard = some e → s.tx.count = some (n + 1) →
      ∃ t, exec .guardGapComplete s = .next t ∧ State.Ends
        { s with tx := { s.tx with state := .backoff, guard := none, slotEnd := some (s.now + 20) } } t) ∧
    (∀ l, s.tx.state = .defer → s.tx.guard = some e → s.tx.count = some 0 → s.launch c = some l →
      ∃ t, exec .guardGapComplete s = .next t ∧ sends l t) ∧
    (s.tx.state = .defer → s.tx.guard = some e → s.tx.count = some 0 → s.launch c = none →
      ∃ t, exec .guardGapComplete s = .next t ∧ State.Ends s0.senderIdle t) ∧
    (s.tx.state = .backoff → s.tx.slotEnd = some e → s.tx.count = some (n + 2) →
      ∃ t, exec .backoffSlotEnd s = .next t ∧ State.Ends
        { s with tx := { s.tx with count := some (n + 1), slotEnd := some (s.now + 20) } } t) ∧
    (∀ l, s.tx.state = .backoff → s.tx.slotEnd = some e → s.tx.guard = none → s.tx.count = some 1 →
      s.launch c = some l → ∃ t, exec .backoffSlotEnd s = .next t ∧ sends l t) ∧
    (s.tx.state = .backoff → s.tx.slotEnd = some e → s.tx.guard = none → s.tx.count = some 1 → s.launch c = none →
      ∃ t, exec .backoffSlotEnd s = .next t ∧ State.Ends s0.senderIdle t)) ∧
  (∀ (s : State) (l : Launch),
    (∀ id peer, (State.beginSending (.data id peer) l s).slots = s.slots ∧
      (State.beginSending (.data id peer) l s).fwd =
        s.fwd.map fun e => if e.id = id then { e with attempts := e.attempts + 1 } else e) ∧
    (∀ i id r x p, s.rec? i = some r → r.exch = some x → x.page = some p →
      (State.beginSending (.page i id) l s).fwd = s.fwd ∧ (State.beginSending (.page i id) l s).slots =
        s.slots.set i (some { r with exch := some { x with page := some { p with attempts := p.attempts + 1 } } })) ∧
    (∀ c, (c = .beacon ∨ ∃ id, c = .probe id ∨ c = .reflect id) →
      (State.beginSending c l s).fwd = s.fwd ∧ (State.beginSending c l s).slots = s.slots)) ∧
  (∀ (s : State) (c : Chosen) (l : Launch),
    let t := State.beginSending c l s
    { t with tx := s.tx, rx := s.rx, fwd := s.fwd, slots := s.slots } = s ∧
    t.rx = { s.rx with state := .off, frame := none } ∧
    t.tx = { s.tx with state := .sending, chosen := some c, addressee := l.addressee, attempt := l.attempt,
                       count := none, guard := none, slotEnd := none, air := some l.frame,
                       ends := some (s.now + airtime l.cls l.frame.body.length) } ∧
    s.senderIdle = { s with workAvailable := true, tx := { s.tx with
      state := .idle, chosen := none, addressee := none, attempt := 0, count := none, guard := none, slotEnd := none,
      ends := none, ackWait := none, air := none } }) ∧
  (∀ c n : Nat, c < 8 →
    let rate := [5, 8, 12, 16, 22, 30, 40, 48].getD c 5
    airtime c n = 44 + bodyTime c n ∧ 8 * n ≤ rate * bodyTime c n ∧ rate * bodyTime c n < 8 * n + rate) ∧
  guardGap = 40

/-- The final check of R19 and what a frame goes out as (R2, R19, R105). A DATA frame must be queued, resolve to the
same neighbour, fit its link maximum payload and have it listening; then it goes to that neighbour at the record's step
and r_used with the record's echo, and its attempt is one more than before. An OFFER page must be the record's pending
page and its peer listening: it goes at step 31 and class 0 with the record's echo. A probe must be the pending one and
a REFLECT the one in the reflect buffer, with the record of its peer UP and listening: they go at the record's step and
r_used, once. The due beacon always passes, at step 31 and class 0 to 0xFFF, with the contents of the station now
(R15): the advertised cost, the next hop's address or 0, the duty mode, W_listen, the gateway flag, the room flag while
fewer than 12 are UP, and one echo entry F/16 for each UP record in slot order. Every frame goes out with its body's
check, and its length in the header (R170). -/
def Obligations.FinalCheckFillsTheFrame : Prop :=
  (∀ (s : State) (id i : Nat) (peer : Addr),
    (∀ l, s.launch (.data id peer) = some l ↔ ∃ e i r m, s.entry? id = some e ∧ s.resolve e.dest = some i ∧
      s.rec? i = some r ∧ r.peer = peer ∧ r.terms = some m ∧ e.payload.length ≤ m.maxPayload ∧
      (r.advert.mode ≠ .doze ∨ r.windowEnd.isSome = true) ∧
      l = { addressee := some peer, cls := r.trim.rUsed, attempt := e.attempts + 1,
            frame := frameOf { kind := .data, full := false, dest := peer, src := s.cfg.address, step := r.trim.step,
                               cls := r.trim.rUsed, len := 0, echo := (Int.tdiv r.F 16).toNat }
              (DataBody.encode { origin := e.origin, dest := e.dest, seq := e.seq, hop := e.hop,
                                 payload := e.payload }) }) ∧
    (∀ l, s.launch (.page i id) = some l ↔ ∃ r x p, s.rec? i = some r ∧ r.exch = some x ∧ x.page = some p ∧ p.id = id ∧
      (r.advert.mode ≠ .doze ∨ r.windowEnd.isSome = true) ∧
      l = { addressee := some r.peer, cls := 0, attempt := p.attempts + 1,
            frame := frameOf { kind := .offer, full := false, dest := r.peer, src := s.cfg.address, step := 31,
                               cls := 0, len := 0, echo := (Int.tdiv r.F 16).toNat } p.bytes }) ∧
    (∀ l, s.launch (.probe id) = some l ↔ ∃ k rd c j r, s.check.state = .pending k id rd ∧ s.check.record = some c ∧
      s.findPeer c.peer = some j ∧ s.rec? j = some r ∧ r.link = .up ∧
      (r.advert.mode ≠ .doze ∨ r.windowEnd.isSome = true) ∧
      l = { addressee := some r.peer, cls := r.trim.rUsed, attempt := 0,
            frame := frameOf { kind := .probe, full := false, dest := r.peer, src := s.cfg.address, step := r.trim.step,
                               cls := r.trim.rUsed, len := 0, echo := (Int.tdiv r.F 16).toNat } (probeBody c k) }) ∧
    (∀ l, s.launch (.reflect id) = some l ↔ ∃ q j r, s.tx.reflect = some q ∧ q.id = id ∧ s.findPeer q.prober = some j ∧
      s.rec? j = some r ∧ r.link = .up ∧ (r.advert.mode ≠ .doze ∨ r.windowEnd.isSome = true) ∧
      l = { addressee := some r.peer, cls := r.trim.rUsed, attempt := 0,
            frame := frameOf { kind := .reflect, full := false, dest := r.peer, src := s.cfg.address,
                               step := r.trim.step,
                               cls := r.trim.rUsed, len := 0, echo := (Int.tdiv r.F 16).toNat } q.body }) ∧
    (∃ l, s.launch .beacon = some l ∧ l.addressee = none ∧ l.cls = 0 ∧ l.attempt = 0 ∧
      l.frame = frameOf { kind := .beacon, full := false, dest := 0xFFF#12, src := s.cfg.address, step := 31, cls := 0,
                          len := 0, echo := 0 } (beaconBody
        { cost := s.advCost, nextHop := (match s.nextHop with | some h => h.addr | none => 0), mode := s.duty.mode,
          window := s.cfg.wListen, gateway := s.cfg.gateway, room := decide (s.upCount < 12) }
        (s.slots.filterMap fun o => o.bind fun r =>
          if r.link = .up then some { peer := r.peer, margin := (Int.tdiv r.F 16).toNat } else none)))) ∧
  (∀ (h : Header) (body : List Byte) (s : State) (id : Nat),
    frameOf h body = { header := Header.encode { h with len := body.length + 2 }, body := withCheck body } ∧
    s.entry? id = s.fwd.find? fun e => decide (e.id = id))

/-- TRANSMISSION_END (R15, R16, R20, R140, R151, R153): a beacon is no longer due and the Duty Controller learns of
its end; a probe is returned as sent; a REFLECT frees its buffer; a DATA or OFFER frame is awaited for 200 µs. Every
kind but a beacon is activity, which comes before a probe is returned (log 45). -/
def Obligations.TransmissionEndsByKind : Prop :=
  ∀ (s : State) (e id i : Nat) (peer : Addr), s.inReset = false → s.tx.state = .sending → s.tx.ends = some e →
    e ≤ s.now →
    (s.tx.chosen = some .beacon → ∃ t, exec .transmissionEnd s = .next t ∧
      State.Ends (State.beaconEnded (State.senderIdle { s with tx := { s.tx with beaconDue := false } })) t ∧
      t.tx.beaconDue = false) ∧
    (s.tx.chosen = some (.probe id) → ∃ t, exec .transmissionEnd s = .next t ∧
      State.Ends (State.senderIdle (State.probeSent id s.activity)) t) ∧
    (∀ b, s.tx.chosen = some (.reflect id) → s.tx.reflect = some b → b.id = id →
      ∃ t, exec .transmissionEnd s = .next t ∧
        State.Ends (State.senderIdle { s.activity with tx := { s.activity.tx with reflect := none } }) t ∧
        t.tx.reflect = none) ∧
    ((s.tx.chosen = some (.data id peer) ∨ s.tx.chosen = some (.page i id)) →
      ∃ t, exec .transmissionEnd s = .next t ∧
        State.Ends { s.activity with tx := { s.tx with state := .awaitAck, ends := none, air := none,
                                                       ackWait := some (s.now + 200) } } t ∧
        t.tx.state = .awaitAck ∧ t.tx.ackWait = some (s.now + 200))

/-- SHORT_GAP_EXPIRY and ACK_TRANSMISSION_END (R21, R3): the owed ACK goes on air for 44 µs with the receiver OFF, and
at its end the sender resumes, an idle one with a choice if work is waiting. The ACK (R2, R21, 12_formats) carries the
status owed to the sender of the frame answered, at class 0 with no body, at the step p of an UP record and else at
31, with the echo F/16 of a record and else 0. -/
def Obligations.OwedAckGoesOutAfterTheShortGap : Prop :=
  (∀ (s : State) (a : AckOwed) (fr : AirFrame) (e : Nat), s.inReset = false →
    (s.tx.ackOwed = some a → a.due ≤ s.now → s.tx.state ≠ .sending → s.tx.ackAir = none →
      ∃ t, exec .shortGapExpiry s = .next t ∧ State.Ends
        { s with rx := { s.rx with state := .off, frame := none },
                 tx := { s.tx with ackOwed := none, ackAir := some (s.ackFrame a, s.now + 44) } } t ∧
        t.rx.state = .off ∧ (s.ackFrame a).body = []) ∧
    (s.tx.ackAir = some (fr, e) → e ≤ s.now →
      ∃ t, exec .ackTransmissionEnd s = .next t ∧ State.Ends
        { s with tx := { s.tx with ackAir := none },
                 workAvailable := s.workAvailable || decide (s.tx.state = .idle) } t)) ∧
  (∀ (s : State) (a : AckOwed), ∃ step echo,
    s.ackFrame a = { header := Header.encode { kind := .ack, full := a.full, dest := a.dest, src := s.cfg.address,
                                               step := step, cls := 0, len := 0, echo := echo }, body := [] } ∧
    (s.findPeer a.dest = none → step = 31 ∧ echo = 0) ∧
    (∀ i r, s.findPeer a.dest = some i → s.rec? i = some r →
      echo = (Int.tdiv r.F 16).toNat ∧ (r.link = .up → step = r.trim.step) ∧ (r.link ≠ .up → step = 31)))

/-- ACK_WAIT_EXPIRY and a kept ACK (R22, R23, R34, R48; log 14, log 24; candidacy assessed at the end, R46, log 32).
The failure streak of an ACK's sender with a record is 0; an ACK of this station's wait, or the end of the wait,
settles the attempt; any other ACK settles nothing. ACCEPTED releases a DATA frame and its buffer and sets cw to 16.
FULL or no ACK with attempts remaining leaves the frame queued and doubles cw up to 256. With none remaining a DATA
frame is dropped FULL AT PEER or NO ACK and cw is 16; after NO ACK the streak of an UP addressee rises, and at 3 its
link is LOST NO ACK. A page goes to the Offer Engine. The sender is then idle. A kept ACK reaches the Air Sender
as soon as its observation has been handed on (R12). A drop, for any cause (R128 to R130,
R135, R40, R120): the entry leaves the queue, its buffer goes to the receiver's standing request or is free, a host
frame gets a DROP report (its slot is log 44), and a transit frame dropped NO PATH counts in its source's row. -/
def Obligations.AttemptsAreSettledOnce : Prop :=
  (∀ (s : State) (e : Nat), s.inReset = false → s.tx.state = .awaitAck → s.tx.ackWait = some e → e ≤ s.now →
    ∃ t, exec .ackWaitExpiry s = .next t ∧ State.Ends (State.assessAll (State.settleAttempt .noAck s)) t) ∧
  (∀ (s : State) (h : Header),
    let awaited := s.tx.state = .awaitAck ∧ s.tx.addressee = some h.src ∧ h.dest = s.cfg.address
    let o : AttemptOutcome := if h.full then .full else .accepted
    (¬awaited → s.takeAck h none = s) ∧ (awaited → s.takeAck h none = State.settleAttempt o s) ∧
    (∀ i r, s.rec? i = some r →
      (¬awaited → s.takeAck h (some i) = s.setSlot i (some { r with failStreak := 0 })) ∧
      (awaited → s.takeAck h (some i) = State.settleAttempt o (s.setSlot i (some { r with failStreak := 0 }))))) ∧
  (∀ (s : State) (f : RxFrame) (slot : Option Nat) (body : List Byte), f.header.kind = .ack →
    s.handBody f slot body = s.takeAck f.header slot) ∧
  (∀ (s : State) (o : AttemptOutcome) (id i : Nat) (peer : Addr) (q : Entry),
    let ends (cw : Nat) (u : State) : State := State.senderIdle { u with tx := { u.tx with cw := cw } }
    (o ≠ .accepted → s.tx.attempt ≤ s.cfg.rMax →
      (s.tx.chosen = some (.data id peer) ∨ s.tx.chosen = some (.page i id)) →
      State.settleAttempt o s = ends (min 256 (2 * s.tx.cw)) s) ∧
    (s.tx.chosen = some (.page i id) →
      State.settleAttempt .accepted s = ends 16 (s.pageAcked i id) ∧
      (o ≠ .accepted → s.cfg.rMax < s.tx.attempt → State.settleAttempt o s = ends 16 (s.pageExhausted i id))) ∧
    (s.tx.chosen = some (.data id peer) → s.tx.addressee = some peer → s.entry? id = some q →
      State.settleAttempt .accepted s = ends 16 (s.releaseEntry id) ∧
      (s.cfg.rMax < s.tx.attempt →
        let d := s.dropEntry id .noAck
        State.settleAttempt .full s = ends 16 (s.dropEntry id .fullAtPeer) ∧
        ((∀ j r, s.findPeer peer = some j → s.rec? j = some r → r.link ≠ .up) →
          State.settleAttempt .noAck s = ends 16 d) ∧
        (∀ j r, s.findPeer peer = some j → s.rec? j = some r → r.link = .up →
          let raised := d.setSlot j (some { r with failStreak := r.failStreak + 1 })
          (r.failStreak + 1 < 3 → State.settleAttempt .noAck s = ends 16 raised) ∧
          (3 ≤ r.failStreak + 1 → State.settleAttempt .noAck s = ends 16 (raised.loseLink j .noAck)))))) ∧
  (∀ (s : State) (id : Nat) (q : Entry) (cause : DropCause), s.entry? id = some q →
    let left := s.fwd.eraseP fun e => decide (e.id = id)
    let gone : State :=
      if s.rx.request = true ∧ s.rx.holds = false then
        { s with fwd := left, rx := { s.rx with holds := true, request := false } }
      else { s with fwd := left, free := s.free + 1 }
    s.releaseEntry id = gone ∧
    (∀ tag, q.tag = some tag → s.dropEntry id cause = gone.putReport q.dest none (.drop 1 tag cause q.seq)) ∧
    (∀ j r, q.tag = none → q.source = some j → cause = .noPath → s.rec? j = some r →
      s.dropEntry id cause = gone.setSlot j (some { r with pathDrops := min 65535 (r.pathDrops + 1) })) ∧
    (q.tag = none → (q.source = none ∨ cause ≠ .noPath) → s.dropEntry id cause = gone))

/-! ## The records' timers -/

/-- SILENCE_LIMIT_REACHED (R33), and the loss of a link for every cause: SILENT, NO ACK, NOT ECHOED (R33 to R37, R41).
A record that is not UP is left alone. An UP record is LOST with its fade part CLEAR, its trim part at its values
outside UP, no terms and its streaks 0, its costs following, and everything else of it kept; NEIGHBOUR LOST is reported
with the cause; the next hop is reselected, with a ROUTE report when it or the advertised cost changed; no return path
leads through the record; a check on it ends LINK LOST with its CHECK report; a REFLECT for the peer is withdrawn
unless it is on air (log 34). A record already past the forget time is then removed AGED at once. At the end of the row
every HEARD record's candidacy is assessed (R46; for all slots at the command's end: log 32). -/
def Obligations.SilenceLosesTheLink : Prop :=
  (∀ (s : State) (i : Nat) (r : Record), s.inReset = false → s.rec? i = some r → r.link = .up →
    s.cfg.kSilence * r.advert.mode.interval ≤ r.silence / 1000 →
    ∃ t, exec (.silenceLimitReached i) s = .next t ∧ State.Ends (State.assessAll (s.loseLink i .silent)) t) ∧
  (∀ (s : State) (i : Nat) (r : Record) (cause : LinkCause), s.rec? i = some r →
    (r.link ≠ .up → s.loseLink i cause = s) ∧
    (r.link = .up →
      let r' : Record := Record.costed s.cfg { r with
        link := .lost, terms := none, failStreak := 0, notEchoed := 0,
        fade := { state := .clear, count := 0, start := none, maxDef := 0, shadow := false, brief := none,
                  settle := none },
        trim := { r.trim with echo := none, step := 31, state := .idle, count := 0, timer := none, rUsed := 0 } }
      let b : State := { State.putReport r.peer (some i) (.neighbour .lost cause (some .lost))
        (s.setSlot i (some r')) with workAvailable := true }
      ∃ u : State, State.LinkEnds s b u i r.peer ∧ u.rec? i = some r' ∧ r'.eligible = false ∧
        (∀ j, j ≠ i → u.rec? j = s.rec? j) ∧ u.fwd = s.fwd ∧ u.ring = s.ring ∧ u.seen = s.seen ∧ u.host = s.host ∧
        u.duty = s.duty ∧ u.free = s.free ∧ u.rx = s.rx ∧ u.draws = s.draws ∧ u.workAvailable = true ∧
        State.Reported s u r.peer (some i) (.neighbour .lost cause (some .lost)) ∧
        (s.nowMs - r.lastHeard < 1000 * s.cfg.forget → s.loseLink i cause = u) ∧
        (1000 * s.cfg.forget ≤ s.nowMs - r.lastHeard → s.loseLink i cause = u.removeRecord i .aged ∧
          (s.loseLink i cause).rec? i = none ∧
          State.Reported s (s.loseLink i cause) r.peer (some i) (.neighbour .removed .aged none))))

/-- AGED, INITIATION_WAIT_EXPIRY, EXCHANGE_TIMEOUT and OFFER_HOLDOFF_EXPIRY (R37, R46, R56, R58, R59): each acts on its
record alone, and every HEARD record's candidacy is assessed at its end, in slot order (log 32). A record in HEARD is a
candidate while the station is ON AIR with fewer than 12 records UP, its room flag is set and no holdoff runs (R46):
the station with the lower address opens at once, the other starts the initiation wait of 3 s, and the wait of a record
that is no candidate is discarded. -/
def Obligations.PairingTimersActOnTheirRecord : Prop :=
  (∀ (s : State) (i : Nat) (r : Record), s.inReset = false → s.rec? i = some r →
    ((r.link = .heard ∨ r.link = .lost) → 1000 * s.cfg.forget ≤ s.nowMs - r.lastHeard →
      ∃ t, exec (.aged i) s = .next t ∧ State.Ends (State.assessAll (s.removeRecord i .aged)) t) ∧
    (∀ e, r.initWait = some e → e ≤ s.now → s.candidate r = true →
      ∃ t, exec (.initiationWaitExpiry i) s = .next t ∧ State.Ends (State.assessAll (s.openOn i)) t) ∧
    (∀ e, r.initWait = some e → e ≤ s.now → s.candidate r = false →
      ∃ t, exec (.initiationWaitExpiry i) s = .next t ∧
        State.Ends (State.assessAll (s.setSlot i (some { r with initWait := none }))) t) ∧
    (∀ x, r.exch = some x → x.timer ≤ s.now → x.refusing = false →
      ∃ t, exec (.exchangeTimeout i) s = .next t ∧
        State.Ends (State.assessAll (s.toHeard i .timeout 10000000)) t) ∧
    (∀ x, r.exch = some x → x.timer ≤ s.now → x.refusing = true →
      ∃ t, exec (.exchangeTimeout i) s = .next t ∧
        State.Ends (State.assessAll (s.toHeard i .refused 10000000)) t) ∧
    (∀ e, r.holdoff = some e → e ≤ s.now →
      ∃ t, exec (.offerHoldoffExpiry i) s = .next t ∧
        State.Ends (State.assessAll (s.setSlot i (some { r with holdoff := none }))) t)) ∧
  (∀ (s : State) (i : Nat) (r : Record), s.rec? i = some r →
    let fit := r.link = .heard ∧ s.station = .onAir ∧ s.upCount < 12 ∧ r.advert.room = true ∧ r.holdoff = none
    (s.candidate r = true ↔ fit) ∧
    (fit → s.cfg.address.toNat < r.peer.toNat → s.assess i = s.openOn i) ∧
    (fit → r.peer.toNat ≤ s.cfg.address.toNat →
      (r.initWait = none → s.assess i = s.setSlot i (some { r with initWait := some (s.now + 3000000) })) ∧
      (r.initWait ≠ none → s.assess i = s)) ∧
    (¬fit → s.assess i = s.setSlot i (some { r with initWait := none }))) ∧
  (∀ s : State, (∀ i, s.rec? i = none → s.assess i = s) ∧
    s.assessAll = (List.range 24).foldl (fun u i => u.assess i) s ∧
    s.upCount = ((s.slots.filterMap id).filter fun r => decide (r.link = .up)).length)

/-- What the pairing timers ask of the Table and the Offer Engine (R32, R45 to R47, R55, R59, R60, R115): an opening
makes the record OFFERING as PROPOSER with its OPEN ready and a nonce that no rule fixes (log 5); a failure returns it
to HEARD with its cause and holdoff, a holdoff of 0 having ended at once, unless its age removes it; a completion makes
it UP while fewer than 12 are UP, with the smaller of the two sides' rate caps and maximum payloads and the larger of
their check paces, a peer that gave no maximum payload standing at 1,024 and one that gave no pace at 0; its costs are
computed and the next hop is reselected, with a ROUTE report when it or the advertised cost changed. That NEIGHBOUR UP
joins the report queue before that ROUTE report, which no rule orders, is the model's deduction (log 25). -/
def Obligations.TableGrantsAndRefusesRequests : Prop :=
  ∀ (s : State) (i : Nat) (r : Record), s.rec? i = some r →
    (∃ w : Word16,
      let x : Exchange :=
        { role := .proposer, phase := .sendingPages, refusing := false, ownNonce := w, peer := none, nextPage := 0,
          ownCount := 2, expected := 1, lastPage := none, maxPayload := none, pace := none, timer := s.now + 2000000,
          page := none }
      s.openOn i = State.withPage { s with draws := s.draws + 1 } i { r with link := .offering, holdoff := none,
                                                                             initWait := none } x 0 ∧
      pageBytes s.cfg x 0 = openBytes .proposer false w s.cfg.rateCap s.cfg.reflect 2) ∧
    (∀ cause hold,
      let heard : Record := { r with link := .heard, exch := none, initWait := none,
                                     holdoff := if hold = 0 then none else some (s.now + hold) }
      let u : State := { State.putReport r.peer (some i) (.neighbour .heard cause (some .heard))
        (s.setSlot i (some heard)) with workAvailable := true }
      (s.nowMs - r.lastHeard < 1000 * s.cfg.forget → s.toHeard i cause hold = u ∧ u.rec? i = some heard ∧
        (∀ j, j ≠ i → u.rec? j = s.rec? j) ∧
        State.Reported s u r.peer (some i) (.neighbour .heard cause (some .heard))) ∧
      (1000 * s.cfg.forget ≤ s.nowMs - r.lastHeard →
        s.toHeard i cause hold = u.removeRecord i .aged ∧ (s.toHeard i cause hold).rec? i = none)) ∧
    (∀ x, r.exch = some x → 12 ≤ s.upCount → s.requestUp i = s.toHeard i .refused 10000000) ∧
    (∀ x, r.exch = some x → s.upCount < 12 →
      ∃ m : Terms,
        let r' : Record := Record.costed s.cfg { r with
          link := .up, terms := some m, exch := none, holdoff := none, initWait := none, failStreak := 0,
          notEchoed := 0,
          trim := { r.trim with echo := none, step := s.cfg.pInit, state := .idle, count := 0, timer := none,
                                rUsed := 0 } }
        let u : State := { State.putReport r.peer (some i) (.neighbour .up .none (some .up))
          (s.setSlot i (some r')) with workAvailable := true }
        let same := r'.pathCost = r.pathCost ∧ r'.eligible = r.eligible
        (same → s.requestUp i = u) ∧ (¬same → s.requestUp i = u.reselect) ∧ (s.requestUp i).rec? i = some r' ∧
        (∀ q, x.peer = some q → m.rateCeiling = min s.cfg.rateCap q.rateCap ∧ m.peerReflects = q.reflect) ∧
        (∀ v, x.maxPayload = some v → m.maxPayload = min s.cfg.maxPayload v) ∧
        (∀ v, x.pace = some v → m.pace = max s.cfg.checkPace v) ∧
        (x.maxPayload = none → m.maxPayload = min s.cfg.maxPayload 1024) ∧
        (x.pace = none → m.pace = s.cfg.checkPace) ∧
        (∀ j, j ≠ i → (s.requestUp i).rec? j = s.rec? j) ∧
        State.Reported s (s.requestUp i) r.peer (some i) (.neighbour .up .none (some .up)) ∧
        State.Reselects 1 s (s.requestUp i) i r r')

/-- What the Offer Engine does with a page that is not the one it waits for (R49, R50, R53, R56, R57; the order of its
tests is the model's reading, log 23): in HEARD a PROPOSER OPEN is answered, or refused with 12 UP, in an exchange
begun with a nonce that no rule fixes (log 5; what it holds where R56 lists no value is log 40), and another page is
disregarded; in UP a PROPOSER OPEN is disregarded and another page acknowledged again; in OFFERING a repeat is
acknowledged again, a PROPOSER meeting a lower nonce goes on, and a refusal ends the exchange with a holdoff of 10 s.
The Bool says whether ACCEPTED is asked for. -/
def Obligations.OfferEngineClassifiesPages : Prop :=
  ∀ (s : State) (i : Nat) (r : Record) (x : Exchange) (n : Word16) (cap terms k v : Nat) (refuse refl : Bool),
    s.rec? i = some r →
    (r.link = .heard → ∃ w : Word16,
      let u : State := { s with draws := s.draws + 1 }
      let a : Record := { r with link := .offering, holdoff := none, initWait := none }
      let y : Exchange :=
        { role := .answerer, phase := .awaitingPages, refusing := false, ownNonce := w,
          peer := some { nonce := n, rateCap := cap, reflect := refl }, nextPage := 0, ownCount := 2,
          expected := terms, lastPage := some 0, maxPayload := none, pace := none, timer := s.now + 2000000,
          page := none }
      let z : Exchange := { y with refusing := true, ownCount := 0, expected := 0 }
      pageBytes s.cfg z 0 = openBytes .answerer true w s.cfg.rateCap s.cfg.reflect 0 ∧
      (s.upCount < 12 → 0 < terms → s.takePage i (.opening .proposer refuse n cap refl terms) =
        ({ u.withExch i a y with workAvailable := true }, true)) ∧
      (s.upCount < 12 → terms = 0 → s.takePage i (.opening .proposer refuse n cap refl terms) =
        (u.withPage i a y 0, true)) ∧
      (12 ≤ s.upCount → s.takePage i (.opening .proposer refuse n cap refl terms) = (u.withPage i a z 0, true))) ∧
    (r.link = .heard → s.takePage i (.opening .answerer refuse n cap refl terms) = (s, false) ∧
      s.takePage i (.term k terms v) = (s, false)) ∧
    (r.link = .up → s.takePage i (.opening .proposer refuse n cap refl terms) = (s, false) ∧
      s.takePage i (.opening .answerer refuse n cap refl terms) = (s, true) ∧
      s.takePage i (.term k terms v) = (s, true)) ∧
    (r.link = .offering → r.exch = some x →
      (∀ role q, x.lastPage = some 0 → x.peer = some q → q.nonce = n →
        s.takePage i (.opening role refuse n cap refl terms) = (s, true)) ∧
      (x.lastPage = some k → s.takePage i (.term k terms v) = (s, true)) ∧
      (x.role = .proposer → x.peer = none → n.toNat < x.ownNonce.toNat →
        s.takePage i (.opening .proposer refuse n cap refl terms) = (s, false)) ∧
      (x.role = .proposer → x.peer = none →
        s.takePage i (.opening .answerer true n cap refl terms) = (s.toHeard i .refused 10000000, true)))

/-- An exchange page by page (R44, R45, R48, R51 to R58, R61; log 5, log 23, log 40). The page expected next is applied
and acknowledged, restarting the timer; with no more expected an ANSWERER makes its OPEN ready and a PROPOSER asks for
UP. A PROPOSER meets an ANSWERER OPEN in either phase; a refusing one ends the exchange. Crossing OPENs: the lower
nonce yields; equal ones end in a tie with a holdoff of 0 to 1,000 ms and no ACK. A refusing record acknowledges every
TERM page and applies none. A PROPOSER OPEN of another nonce at an ANSWERER starts afresh; of the peer nonce it is
another page. An own page acknowledged brings the next one, or the role's next phase; the refusing OPEN ends the
refusal; exhaustion ends the exchange. A page good and well formed goes to the Offer Engine, which may ask for the ACK.
A page is malformed by its number, its length, its role code, its rate cap or its term count, and is otherwise read
field by field (R44, R170). -/
def Obligations.ExchangesRunToTheirEnd : Prop :=
  (∀ (s : State) (i : Nat) (r : Record) (x : Exchange), s.rec? i = some r → r.link = .offering → r.exch = some x →
    let now := s.now + 2000000
    (∀ k kind v, x.refusing = false → x.phase = .awaitingPages → x.lastPage = some k →
      let y : Exchange := { x with
        maxPayload := if kind = 1 then some (max 64 (min v 1024)) else x.maxPayload,
        pace := if kind = 2 then some (min 1000 v) else x.pace,
        lastPage := some (k + 1), expected := x.expected - 1, timer := now }
      (1 < x.expected → s.takePage i (.term (k + 1) kind v) = (s.withExch i r y, true)) ∧
      (x.expected = 1 → x.role = .answerer → s.takePage i (.term (k + 1) kind v) = (s.withPage i r y 0, true)) ∧
      (x.expected = 1 → x.role = .proposer →
        s.takePage i (.term (k + 1) kind v) = ((s.withExch i r y).requestUp i, true)) ∧
      (x.expected = 0 → s.takePage i (.term (k + 1) kind v) = (s, false))) ∧
    (∀ n kind v, 1 ≤ n → x.lastPage ≠ some n →
      (x.refusing = true → s.takePage i (.term n kind v) = (s, true)) ∧
      (x.refusing = false → (x.phase = .sendingPages ∨ x.lastPage ≠ some (n - 1)) →
        s.takePage i (.term n kind v) = (s, false))) ∧
    (∀ refuse n cap refl terms, x.role = .proposer → (x.peer = none ∨ x.lastPage ≠ some 0 ∨
        ∃ q, x.peer = some q ∧ q.nonce ≠ n) →
      let y : Exchange := { x with peer := some { nonce := n, rateCap := cap, reflect := refl }, lastPage := some 0,
                                   expected := terms, phase := .awaitingPages, page := none, timer := now }
      let z : Exchange := { y with role := .answerer, nextPage := 0 }
      (s.takePage i (.opening .answerer true n cap refl terms) = (s.toHeard i .refused 10000000, true)) ∧
      ((x.phase = .sendingPages ∨ x.peer = none) →
        (0 < terms → s.takePage i (.opening .answerer false n cap refl terms) = (s.withExch i r y, true)) ∧
        (terms = 0 → s.takePage i (.opening .answerer false n cap refl terms) =
          ((s.withExch i r y).requestUp i, true))) ∧
      (x.phase = .awaitingPages → x.peer ≠ none →
        s.takePage i (.opening .answerer false n cap refl terms) = (s, false)) ∧
      (n.toNat < x.ownNonce.toNat → s.takePage i (.opening .proposer refuse n cap refl terms) = (s, false)) ∧
      (x.ownNonce.toNat < n.toNat →
        (0 < terms → s.takePage i (.opening .proposer refuse n cap refl terms) = (s.withExch i r z, true)) ∧
        (terms = 0 → s.takePage i (.opening .proposer refuse n cap refl terms) = (s.withPage i r z 0, true))) ∧
      (n = x.ownNonce → ∃ h, h ≤ 1000 ∧ s.takePage i (.opening .proposer refuse n cap refl terms) =
        (State.toHeard i .tie (1000 * h) { s with draws := s.draws + 1 }, false))) ∧
    (∀ q refuse n cap refl terms, x.role = .answerer → x.peer = some q →
      (q.nonce = n → x.lastPage ≠ some 0 → s.takePage i (.opening .proposer refuse n cap refl terms) = (s, false)) ∧
      ((q.nonce ≠ n ∨ x.lastPage ≠ some 0) →
        s.takePage i (.opening .answerer refuse n cap refl terms) = (s, false)) ∧
      (q.nonce ≠ n → ∃ w : Word16,
        let u : State := { s with draws := s.draws + 1 }
        let a : Record := { r with holdoff := none, initWait := none }
        let y : Exchange :=
          { role := .answerer, phase := .awaitingPages, refusing := false, ownNonce := w,
            peer := some { nonce := n, rateCap := cap, reflect := refl }, nextPage := 0, ownCount := 2,
            expected := terms, lastPage := some 0, maxPayload := none, pace := none, timer := now, page := none }
        (s.upCount < 12 → 0 < terms → s.takePage i (.opening .proposer refuse n cap refl terms) =
          ({ u.withExch i a y with workAvailable := true }, true)) ∧
        (s.upCount < 12 → terms = 0 → s.takePage i (.opening .proposer refuse n cap refl terms) =
          (u.withPage i a y 0, true)) ∧
        (12 ≤ s.upCount → s.takePage i (.opening .proposer refuse n cap refl terms) =
          (u.withPage i a { y with refusing := true, ownCount := 0, expected := 0 } 0, true)))) ∧
    (∀ p id, x.page = some p → p.id = id →
      let y : Exchange := { x with page := none, nextPage := p.number + 1, timer := now }
      (p.number + 1 ≤ x.ownCount → s.pageAcked i id = s.withPage i r y (p.number + 1)) ∧
      (x.ownCount < p.number + 1 →
        (x.role = .proposer → s.pageAcked i id = s.withExch i r { y with phase := .awaitingPages }) ∧
        (x.role = .answerer → x.refusing = true → s.pageAcked i id = (s.withExch i r y).toHeard i .refused 10000000) ∧
        (x.role = .answerer → x.refusing = false → s.pageAcked i id = (s.withExch i r y).requestUp i)) ∧
      (x.refusing = true → s.pageExhausted i id = s.toHeard i .refused 10000000) ∧
      (x.refusing = false → s.pageExhausted i id = s.toHeard i .timeout 10000000)) ∧
    (∀ id, (∀ p, x.page = some p → p.id ≠ id) → s.pageAcked i id = s ∧ s.pageExhausted i id = s)) ∧
  (∀ (c : Settings) (x : Exchange),
    pageBytes c x 0 = openBytes x.role x.refusing x.ownNonce c.rateCap c.reflect (if x.refusing then 0 else 2) ∧
    pageBytes c x 1 = termBytes 1 1 c.maxPayload ∧ pageBytes c x 2 = termBytes 2 2 c.checkPace) ∧
  (∀ (s : State) (f : RxFrame) (i : Nat) (body : List Byte) (page : OfferPage), f.header.kind = .offer →
    f.store = true → checkPasses body = true →
    let asked (u : State) : State := { u with tx := { u.tx with
      ackOwed := some { dest := f.header.src, full := false, due := u.now + 16 } } }
    (parseOffer body = none → s.handBody f (some i) body = s) ∧ s.handBody f none body = s ∧
    (parseOffer body = some page →
      ((s.takePage i page).2 = false → s.handBody f (some i) body = (s.takePage i page).1) ∧
      ((s.takePage i page).2 = true → (f.header.dest = 0xFFE#12 ∨ f.header.dest = 0xFFF#12) →
        s.handBody f (some i) body = (s.takePage i page).1) ∧
      ((s.takePage i page).2 = true → f.header.dest ≠ 0xFFE#12 → f.header.dest ≠ 0xFFF#12 →
        s.handBody f (some i) body = asked (s.takePage i page).1))) ∧
  (∀ body : List Byte,
    let b (i : Nat) : Nat := byteAt body i
    (parseOffer body = none ↔ 3 < b 0 ∨ b 0 = 0 ∧ (body.length ≠ 10 ∨ 1 < b 1 ∨ 7 < b 5 ∨ 3 < b 7) ∨
      1 ≤ b 0 ∧ b 0 ≤ 3 ∧ body.length ≠ 6) ∧
    (∀ role refuse n cap refl terms, parseOffer body = some (.opening role refuse n cap refl terms) →
      b 0 = 0 ∧ b 1 = (match role with | .proposer => 0 | .answerer => 1) ∧ (refuse = true ↔ b 2 ≠ 0) ∧
      n.toNat = b 3 * 256 + b 4 ∧ cap = b 5 ∧ (refl = true ↔ b 6 ≠ 0) ∧ terms = b 7) ∧
    (∀ number kind v, parseOffer body = some (.term number kind v) →
      b 0 ≠ 0 ∧ number = b 0 ∧ kind = b 1 ∧ v = b 2 * 256 + b 3))

/-- BRIEF_EXPIRY and SETTLE_EXPIRY (R83 to R86, R88, R96, R110, R115): a fade held to T_brief becomes a SHADOW with its
report and its cost; one held to the settle time has the baseline rebuilt from F, the fade part CLEAR, and a report
RESEEDED by SETTLE. The change into CLEAR starts a trim where the record is UP, its trim IDLE and X outside the window.
The rate class and the costs follow, and the next hop is reselected, with a ROUTE report when it or the advertised cost
changed; the record's other parts stay. -/
def Obligations.LongFadesBecomeShadowsAndSettle : Prop :=
  ∀ (s : State) (i e : Nat) (r : Record), s.inReset = false → s.rec? i = some r →
    (r.fade.state = .faded ∨ r.fade.state = .leaving) → e ≤ s.nowMs →
    let shadowed : State := State.putReport r.peer (some i)
      (.fade .shadowBegun .none s.cfg.tBrief r.fade.maxDef r.F r.L)
      (s.setSlot i (some { r with fade := { r.fade with shadow := true, brief := none } }))
    (r.fade.brief = some e → r.fade.shadow = false →
      ∃ t r', exec (.briefExpiry i) s = .next t ∧ (t.rec? i).map Record.uncounted = some r'.uncounted ∧
        State.Ends (shadowed.announceFade i r.fade) t ∧
        r' = { r with fade := { r.fade with shadow := true, brief := none },
                      trim := { r.trim with rUsed := rateUsed s.cfg r' },
                      linkCost := r'.linkCost, pathCost := r'.pathCost, eligible := r'.eligible } ∧
        r'.costed s.cfg = r' ∧
        t.host = s.host ∧ t.duty = s.duty ∧ t.check = s.check ∧ t.relayed = s.relayed ∧
        (∀ j, j ≠ i → (t.rec? j).map Record.uncounted = (s.rec? j).map Record.uncounted) ∧
        State.Reported s t r.peer (some i) (.fade .shadowBegun .none s.cfg.tBrief r.fade.maxDef r.F r.L) ∧
        State.Reselects 1 s t i r r') ∧
    (r.fade.settle = some e →
      let starts := r.link = .up ∧ r.trim.state = .idle ∧
        ∃ E, r.trim.echo = some E ∧ (s.cfg.hTrim : Int) < |(E : Int) - 2 * (31 - (r.trim.step : Int)) - s.cfg.mTgt|
      ∃ t r', exec (.settleExpiry i) s = .next t ∧ (t.rec? i).map Record.uncounted = some r'.uncounted ∧
        r' = { r with L := r.F,
                      fade := { state := .clear, count := 0, start := none, maxDef := 0, shadow := false, brief := none,
                                settle := none },
                      trim := r'.trim, linkCost := r'.linkCost, pathCost := r'.pathCost, eligible := r'.eligible } ∧
        State.Ends (State.announceFade i r.fade (State.putReport r.peer (some i)
          (.fade .reseeded .settle (e - r.fade.start.getD e) r.fade.maxDef r.F r.F)
          ((if 1000 * s.cfg.tSettle ≤ s.cfg.tBrief then shadowed else s).setSlot i
            (some { r with L := r.F, fade := r'.fade })))) t ∧
        (starts → r'.trim = { r.trim.started s.cfg s.now with rUsed := rateUsed s.cfg r' }) ∧
        (¬starts → r'.trim = { r.trim with rUsed := rateUsed s.cfg r' }) ∧ r'.costed s.cfg = r' ∧
        t.host = s.host ∧ t.duty = s.duty ∧ t.check = s.check ∧ t.relayed = s.relayed ∧
        (∀ j, j ≠ i → (t.rec? j).map Record.uncounted = (s.rec? j).map Record.uncounted) ∧
        State.Reported s t r.peer (some i) (.fade .reseeded .settle (e - r.fade.start.getD e) r.fade.maxDef r.F r.F) ∧
        State.Reselects 1 s t i r r')

/-- SETTLE_TIMEOUT, TRIM_HOLDOFF_EXPIRY and PEER_WINDOW_END (R96, R97, R99, R100, R103, R110, R115, R146): a settling
that times out is SILENT and holds off for T_hold, keeping its step; a holdoff that ends leaves the trim IDLE, and
starts a trim where the trigger holds with the E then held (log 43), the rate class and the costs following and the
next hop reselected, with a ROUTE report when it or the advertised cost changed; a dozing peer's window ends. -/
def Obligations.TrimTimersAndPeerWindowsEnd : Prop :=
  ∀ (s : State) (i e : Nat) (r : Record), s.inReset = false → s.rec? i = some r → e ≤ s.now →
    (r.trim.state = .settling → r.trim.timer = some e →
      ∃ t r', exec (.settleTimeout i) s = .next t ∧ (t.rec? i).map Record.uncounted = some r'.uncounted ∧
        r' = { r with trim := { r.trim with state := .holdoff, count := 0, last := some .silent,
                                            timer := some (s.now + 1000000 * s.cfg.tHold) } } ∧
        (let report : ReportBody := .trim .silent r.trim.step r.trim.clamped (r.trim.echo.getD 0)
           (((r.trim.echo.getD 0 : Nat) : Int) - 2 * (31 - (r.trim.step : Int))) r.trim.count (rateUsed s.cfg r)
         State.Ends (State.putReport r.peer (some i) report (s.setSlot i (some r'))) t ∧
         State.Reported s t r.peer (some i) report) ∧
        (∀ j, j ≠ i → (t.rec? j).map Record.uncounted = (s.rec? j).map Record.uncounted)) ∧
    (r.trim.state = .holdoff → r.trim.timer = some e →
      let starts := r.link = .up ∧ r.fade.state = .clear ∧
        ∃ E, r.trim.echo = some E ∧ (s.cfg.hTrim : Int) < |(E : Int) - 2 * (31 - (r.trim.step : Int)) - s.cfg.mTgt|
      ∃ t r', exec (.trimHoldoffExpiry i) s = .next t ∧ (t.rec? i).map Record.uncounted = some r'.uncounted ∧
        State.Ends (State.rerate i (State.assessTrim i
          (s.setSlot i (some { r with trim := { r.trim with state := .idle, timer := none } })))) t ∧
        (¬starts → r'.trim = { r.trim with state := .idle, timer := none, rUsed := rateUsed s.cfg r' }) ∧
        (starts →
          r'.trim = { Trim.started s.cfg s.now { r.trim with state := .idle, timer := none } with
                      rUsed := rateUsed s.cfg r' } ∧
          r'.trim.state = .settling ∧ r'.trim.count = 0 ∧ r'.trim.echo = r.trim.echo ∧ r'.trim.step ≤ 31 ∧
          r'.trim.timer = some (s.now + 1000000 * s.cfg.settleTimeout)) ∧
        r' = { r with trim := r'.trim, linkCost := r'.linkCost, pathCost := r'.pathCost, eligible := r'.eligible } ∧
        r'.costed s.cfg = r' ∧
        t.host = s.host ∧ t.duty = s.duty ∧ t.check = s.check ∧ t.relayed = s.relayed ∧
        (∀ j, j ≠ i → (t.rec? j).map Record.uncounted = (s.rec? j).map Record.uncounted) ∧
        State.Reselects 0 s t i r r') ∧
    (r.windowEnd = some e →
      exec (.peerWindowEnd i) s = .next (s.setSlot i (some { r with windowEnd := none })))

/-! ## The station's timers -/

/-- WAIT_LIMIT_EXPIRY and ROUTE_AGE_EXPIRY (R129, R133; log 27): a frame waiting at T_wait and not in flight is
dropped NO PATH, with a DROP report for a host frame and the no-path counter of its source for a transit frame; one
that may go out, or is in flight, stays, and is not tested at its age again. A return path at the route age is
removed, and no other. -/
def Obligations.WaitLimitAndRouteAgeExpire : Prop :=
  (∀ (s : State) (k : Nat) (q : Entry) (p : ReturnPath), s.inReset = false →
    (s.fwd[k]? = some q → q.waitDue = true → 1000 * s.cfg.tWait ≤ s.nowMs - q.entered →
      s.examine q = .waiting → s.inFlight q.id = false → (s.fwd.map Entry.id).Nodup → s.chooses = false →
      ∃ t, exec (.waitLimitExpiry k) s = .next t ∧
        State.Ends (State.dropEntry q.id .noPath { s with
          fwd := s.fwd.map fun e => if e.id = q.id then { e with waitDue := false } else e }) t ∧
        t.fwd = s.fwd.eraseIdx k ∧ t.host = s.host ∧ t.duty = s.duty ∧
        t.check = s.check ∧ t.relayed = s.relayed ∧ t.route = s.route ∧ t.table = s.table ∧ t.buffers = s.buffers ∧
        (∀ i r, q.tag = none → q.source = some i → s.rec? i = some r →
          t.rec? i = some { r with pathDrops := min 65535 (r.pathDrops + 1) }) ∧
        (∀ tag, q.tag = some tag → ∃ n, (∃ w ∈ t.reports, w.addr = q.dest ∧ w.body = .drop n tag .noPath q.seq) ∨
          32 ≤ s.reports.length ∧ t.overrun = true)) ∧
    (s.fwd[k]? = some q → q.waitDue = true → 1000 * s.cfg.tWait ≤ s.nowMs - q.entered →
      (s.examine q ≠ .waiting ∨ s.inFlight q.id = true) →
      ∃ t, exec (.waitLimitExpiry k) s = .next t ∧ State.Ends { s with
        fwd := s.fwd.map fun e => if e.id = q.id then { e with waitDue := false } else e } t) ∧
    (s.paths.find? (fun e => decide (e.dest = p.dest)) = some p → 1000 * s.cfg.routeAge ≤ s.nowMs - p.refresh →
      ∃ t, exec (.routeAgeExpiry p.dest) s = .next t ∧ State.Ends { s with
        paths := s.paths.filter (fun e => decide (e.dest ≠ p.dest)), workAvailable := true } t)) ∧
  (∀ (s : State) (id : Nat), s.inFlight id = true ↔ ∃ peer, s.tx.chosen = some (.data id peer))

/-- ACQUISITION_EXPIRY, STEP_DOWN_EXPIRY, BEACON_DUE and LISTEN_PERIOD_END (R139, R141 to R144, R148; log 16): the
station goes ON AIR with its first beacon due; ACTIVE steps down to QUIET and QUIET to DOZE with the entry hold, with a
DUTY report; a due time makes the one beacon due and starts the interval of the mode at that moment; a listen period
ends. Activity and the end of an own beacon at the Duty Controller (R140, R141, R144, R145, R148): activity takes an ON
AIR station to ACTIVE with the step-down timer at T_quiet, ends DOZE's listening arrangement, and makes a DUTY report
when the mode changes; a beacon's end in DOZE opens a window of W_listen, or a survey of 1,600 ms at every N_survey-th.
The beacon intervals are 100, 400 and 1,600 ms. -/
def Obligations.DutyTimersMoveTheStation : Prop :=
  (∀ (s : State) (e : Nat), s.inReset = false → e ≤ s.now →
    (s.station = .acquiring → s.duty.acquisition = some e →
      ∃ t, exec .acquisitionExpiry s = .next t ∧ State.Ends (State.assessAll { s with
        station := .onAir, workAvailable := true, tx := { s.tx with beaconDue := true },
        duty := { s.duty with acquisition := none, interval := s.duty.mode.interval,
                              nextDue := some (s.now + 1000 * s.duty.mode.interval),
                              stepDown := if s.cfg.tQuiet = 0 then none
                                else some (s.now + 1000000 * s.cfg.tQuiet) } }) t) ∧
    (s.station = .onAir → s.duty.mode = .active → s.duty.stepDown = some e →
      ∃ t, exec .stepDownExpiry s = .next t ∧
        State.Ends (State.putReport 0 none (.duty .quiet .active false) { s with
          duty := { s.duty with
            mode := .quiet,
            stepDown := if s.cfg.tDoze = 0 then none else some (s.now + 1000000 * s.cfg.tDoze) } }) t ∧
        State.Reported s t 0 none (.duty .quiet .active false)) ∧
    (s.station = .onAir → s.duty.mode = .quiet → s.duty.stepDown = some e →
      ∃ t, exec .stepDownExpiry s = .next t ∧
        State.Ends (State.putReport 0 none (.duty .doze .quiet false)
          { s with duty := { s.duty with mode := .doze, stepDown := none, survey := 0, listen := .entryHold } }) t ∧
        State.Reported s t 0 none (.duty .doze .quiet false)) ∧
    (s.station = .onAir → s.duty.nextDue = some e →
      ∃ t, exec .beaconDue s = .next t ∧ State.Ends { s with
        workAvailable := true, tx := { s.tx with beaconDue := true },
        duty := { s.duty with interval := s.duty.mode.interval,
                              nextDue := some (e + 1000 * s.duty.mode.interval) } } t) ∧
    ((s.duty.listen = .window e ∨ s.duty.listen = .survey e) →
      ∃ t, exec .listenPeriodEnd s = .next t ∧ State.Ends { s with duty := { s.duty with listen := .none } } t)) ∧
  (∀ s : State,
    (s.station ≠ .onAir → s.activity = s) ∧
    (s.station = .onAir → s.duty.mode = .active → s.activity = { s with duty := { s.duty with
      stepDown := if s.cfg.tQuiet = 0 then none else some (s.now + 1000000 * s.cfg.tQuiet) } }) ∧
    (s.station = .onAir → s.duty.mode ≠ .active →
      s.activity = State.putReport 0 none (.duty .active s.duty.mode true) { s with duty := { s.duty with
        mode := .active, stepDown := if s.cfg.tQuiet = 0 then none else some (s.now + 1000000 * s.cfg.tQuiet),
        listen := if s.duty.mode = .doze then .none else s.duty.listen,
        survey := if s.duty.mode = .doze then 0 else s.duty.survey } } ∧
      State.Reported s s.activity 0 none (.duty .active s.duty.mode true)) ∧
    (s.duty.mode ≠ .doze → s.beaconEnded = s) ∧
    (s.duty.mode = .doze → s.duty.survey + 1 < s.cfg.nSurvey → s.beaconEnded = { s with duty := { s.duty with
      listen := .window (s.now + 1000 * s.cfg.wListen), survey := s.duty.survey + 1 } }) ∧
    (s.duty.mode = .doze → s.cfg.nSurvey ≤ s.duty.survey + 1 → s.beaconEnded = { s with duty := { s.duty with
      listen := .survey (s.now + 1600000), survey := 0 } })) ∧
  (∀ m : DutyMode, m.interval = match m with | .active => 100 | .quiet => 400 | .doze => 1600)

/-- CHECK_PACE_EXPIRY and REFLECT_TIMEOUT (R149, R151, R154, R155, R157; log 17): the pace makes the next probe ready;
a timeout settles the probe with no live counter moved. A probe is made ready while fewer have been numbered than the
count code allows, and its number wraps after 4,294,967,295. A settled probe raises probes settled, which wraps after
65,535; a saturated counter ends the check SATURATED, the full count ends it COUNT DONE, and otherwise the next probe
follows at once, when the pace has passed since the last probe end or there was none, or at its pace. -/
def Obligations.CheckTimersPaceAndSettleProbes : Prop :=
  (∀ (s : State) (c : CheckRecord) (e n : Nat), s.inReset = false → s.check.record = some c → e ≤ s.now →
    (s.check.state = .pacing e → ∃ t, exec .checkPaceExpiry s = .next t ∧ State.Ends s.readyProbe t) ∧
    (s.check.state = .outstanding n e → ∃ t, exec .reflectTimeout s = .next t ∧ State.Ends (s.probeSettled false) t)) ∧
  (∀ (s : State) (c : CheckRecord), s.check.record = some c →
    let limit := countLimit c.countCode
    let k := (c.settled + 1) % 65536
    let c' : CheckRecord := { c with settled := k }
    let more := ∀ m, limit = some m → c.next < m
    let ready (c : CheckRecord) : State := { s with
      serial := s.serial + 1, workAvailable := true,
      check := { s.check with state := .pending c.next s.serial s.now,
                              record := some { c with next := (c.next + 1) % 4294967296 } } }
    let ended (cause : CheckCause) (t : State) : Prop :=
      t = State.putReport c.peer (some c.slot) (.check cause c.countCode k s.check.live)
          { s with check := { s.check with state := .idle, endCause := cause, record := some c' } } ∧
        State.Reported s t c.peer (some c.slot) (.check cause c.countCode k s.check.live)
    (more → s.readyProbe = ready c) ∧ (¬more → s.readyProbe = s) ∧
    (s.check.state ≠ .idle →
      ended .saturated (s.probeSettled true) ∧ (limit = some k → ended .countDone (s.probeSettled false))) ∧
    (limit ≠ some k →
      (more → c.lastEnd = none → s.probeSettled false = ready c') ∧
      (∀ w, more → c.lastEnd = some w → w + 1000 * s.checkPace c ≤ s.now → s.probeSettled false = ready c') ∧
      (∀ w, c.lastEnd = some w → s.now < w + 1000 * s.checkPace c →
        s.probeSettled false = { s with
          check := { s.check with state := .pacing (w + 1000 * s.checkPace c), record := some c' } })) ∧
    (∀ r m, s.rec? c.slot = some r → r.terms = some m → s.checkPace c = m.pace) ∧
    ((∀ r m, s.rec? c.slot = some r → r.terms ≠ some m) → s.checkPace c = 0)) ∧
  (∀ code, (code = 0 → countLimit code = some 1) ∧ (code = 1 → countLimit code = some 10) ∧
    (code = 2 → countLimit code = some 100) ∧ (code = 3 → countLimit code = some 1000) ∧
    (code = 4 → countLimit code = some 10000) ∧ (code = 5 → countLimit code = none))

/-- A probe from its end to its settling (R151, R153 to R155, R157). A probe returned as sent raises probes sent,
notes the last probe end and is OUTSTANDING for 50 ms; where that brings the counter to its largest value in SATURATE
the check ends SATURATED; a probe whose check has ended moves nothing. A good PROBE of an UP sender is copied into the
free reflect buffer when this station reflects, and ignored otherwise. A REFLECT of the OUTSTANDING number from the
peer under check raises probes returned, and where n bits differ raises errored probes and adds n to errored bits,
each under the counter mode; then the probe is settled. Any other REFLECT is disregarded. Bits are compared over the
shorter pattern, a byte missing or extra counting 8. -/
def Obligations.ProbesAreReflectedAndCounted : Prop :=
  (∀ (s : State) (k id rd : Nat) (c : CheckRecord), s.check.state = .pending k id rd → s.check.record = some c →
    let v := s.check.live
    let out (n : Nat) : Checker := { s.check with
      state := .outstanding k (s.now + 50000), record := some { c with lastEnd := some s.now },
      live := { v with sent := n } }
    (c.mode = .wrap → s.probeSent id = { s with check := out ((v.sent + 1) % 4294967296) }) ∧
    (c.mode = .saturate → v.sent + 1 < 4294967295 → s.probeSent id = { s with check := out (v.sent + 1) }) ∧
    (c.mode = .saturate → 4294967295 ≤ v.sent + 1 →
      s.probeSent id = State.putReport c.peer (some c.slot)
        (.check .saturated c.countCode c.settled { v with sent := 4294967295 })
        { s with check := { out 4294967295 with state := .idle, endCause := .saturated } } ∧
      State.Reported s (s.probeSent id) c.peer (some c.slot)
        (.check .saturated c.countCode c.settled { v with sent := 4294967295 }))) ∧
  (∀ (s : State) (id : Nat), (∀ k rd, s.check.state ≠ .pending k id rd) → s.probeSent id = s) ∧
  (∀ (s : State) (i : Nat) (src : Addr) (body : List Byte),
    let takes := 4 ≤ body.length ∧ (∃ r, s.rec? i = some r ∧ r.link = .up) ∧ s.cfg.reflect = true ∧ s.tx.reflect = none
    (takes → s.takeProbe i src body = { s with
      serial := s.serial + 1, workAvailable := true,
      tx := { s.tx with reflect := some { id := s.serial, prober := src, body := body, ready := s.now } } }) ∧
    (¬takes → s.takeProbe i src body = s)) ∧
  (∀ (s : State) (c : CheckRecord) (n e : Nat) (src : Addr) (body : List Byte), s.check.record = some c →
    s.check.state = .outstanding n e → 4 ≤ body.length → c.peer = src → natBE (body.take 4) = n →
    let d := differingBits (body.drop 4) (patternBytes c n)
    let v := s.check.live
    let raised (top v n : Nat) : Nat := match c.mode with | .saturate => min top (v + n) | .wrap => (v + n) % (top + 1)
    let w : Counters :=
      { sent := v.sent, returned := raised 4294967295 v.returned 1,
        errored := if d = 0 then v.errored else raised 4294967295 v.errored 1,
        bits := if d = 0 then v.bits else raised 65535 v.bits d,
        overflow := if c.mode = .wrap ∧ 65535 < v.bits + d then min 255 (v.overflow + 1) else v.overflow }
    let full := c.mode = .saturate ∧ (4294967295 ≤ v.returned + 1 ∨
      0 < d ∧ (4294967295 ≤ v.errored + 1 ∨ 65535 ≤ v.bits + d))
    s.takeReflect src body = State.probeSettled (decide full) { s with check := { s.check with live := w } }) ∧
  (∀ (s : State) (src : Addr) (body : List Byte),
    (¬∃ c n e, s.check.record = some c ∧ s.check.state = .outstanding n e ∧ 4 ≤ body.length ∧ c.peer = src ∧
      natBE (body.take 4) = n) → s.takeReflect src body = s) ∧
  (∀ (a b : Byte) (l m : List Byte), differingBits [] l = 8 * l.length ∧ differingBits l [] = 8 * l.length ∧
    differingBits (a :: l) (b :: m) =
      (List.range 8).countP (fun j => a.getLsbD j != b.getLsbD j) + differingBits l m) ∧
  (∀ (s : State) (f : RxFrame) (i : Nat) (body : List Byte), f.store = true → checkPasses body = true →
    (f.header.kind = .probe → s.handBody f (some i) body = s.takeProbe i f.header.src (bodyBytes body) ∧
      s.handBody f none body = s) ∧
    (f.header.kind = .reflect → ∀ slot, s.handBody f slot body = s.takeReflect f.header.src (bodyBytes body)))

/-- The pattern bytes of probe k (R152): the fixed byte, or (k + i) mod 256, or the PRBS sequence, whose register
starts for probe k at ((base + k) mod 32,767) + 1, never 0, shifts one place toward bit 14 at each step with bit 14
exclusive-or bit 13 into bit 0 and out, and gives each byte its eight outputs, the first the most significant. -/
def Obligations.ProbePatternsFollowTheRegister : Prop :=
  (∀ (c : CheckRecord) (k : Nat),
    let start : BitVec 15 := BitVec.ofNat 15 ((c.base + k) % 32767 + 1)
    (patternBytes c k).length = c.length ∧ start.toNat = (c.base + k) % 32767 + 1 ∧
    ∀ i, i < c.length →
      (c.pattern = .fixed → (patternBytes c k)[i]? = some c.fixed) ∧
      (c.pattern = .incrementing → ∃ b, (patternBytes c k)[i]? = some b ∧ b.toNat = (k + i) % 256) ∧
      (c.pattern = .prbs → ∃ b, (patternBytes c k)[i]? = some b ∧
        ∀ j, j < 8 → b.getLsbD (7 - j) = (prbsStep^[8 * i + j + 1] start).getLsbD 0)) ∧
  (∀ r : BitVec 15, (prbsStep r).getLsbD 0 = (r.getLsbD 14 != r.getLsbD 13) ∧
    ∀ j, j < 14 → (prbsStep r).getLsbD (j + 1) = r.getLsbD j)

/-! ## Measurement, fade, trim and route -/

/-- The normalised measurement (R63): min(255, raw + 2 × (31 − p_tx)), a step above 31 taken as 31. The gain β by
speed (R67). The filter step (R68): (β × d) / 256 truncated toward zero, 1 in the direction of d when that is 0 and d
is not. -/
def Obligations.MeasurementIsNormalisedAndFiltered : Prop :=
  (∀ raw p : Nat, raw ≤ 255 →
    (p ≤ 31 → normalise raw p = min 255 (raw + 2 * (31 - p))) ∧ (31 < p → normalise raw p = raw) ∧
      normalise raw p ≤ 255) ∧
  (∀ (c : Settings) (F : Int) (m : Nat),
    let d : Int := 16 * (m : Int) - F
    let speed : Int := Int.tdiv |d| 16
    let β : Int := filterGain c speed
    (speed ≤ c.sLo → β = c.bSlow) ∧
    ((c.sLo : Int) < speed → speed < c.sHi →
      β = c.bSlow + Int.tdiv ((256 - (c.bSlow : Int)) * (speed - c.sLo)) (c.sHi - c.sLo)) ∧
    (c.sLo < c.sHi → (c.sHi : Int) ≤ speed → β = 256) ∧
    (Int.tdiv (β * d) 256 ≠ 0 → filterStep c F m = F + Int.tdiv (β * d) 256) ∧
    (Int.tdiv (β * d) 256 = 0 → 0 < d → filterStep c F m = F + 1) ∧
    (Int.tdiv (β * d) 256 = 0 → d < 0 → filterStep c F m = F - 1) ∧
    (d = 0 → filterStep c F m = F))

/-- A measurement's stages (R64, R66, R69): a seed sets F and L to 16 m and nothing else; otherwise F steps, the fade
machine judges L − F with the new F and the old L, and L steps toward F only when the fade state is then CLEAR. A fade
that ends with a class makes its FADE report, BLIP, PASS or SHADOW ENDED, with cause none, its duration and depth, and
the F and L of after the measurement (R81, R82, R88), and no other measurement makes one; then the change of fade
state, if there is one, is announced to the Trim Unit and the Path Selector (R64, R86, R96; what they do is
TrimSetsTheWantedStep and RateClassAndCostsOfARecord). No other slot changes, and of the record itself only the
measurement, the fade part, the trim part and the costs. The filter and the baseline move toward their target and never
past it (R65, R67, R68, R70), under settings in range: F between its old value and 16 m, and it moves unless it is
there; L between its old value and F. The baseline step (R70) is (B_base × (F − L)) / 256 truncated toward zero, 1 in
the direction of F when that is 0 and F differs from L, and none when F equals L. -/
def Obligations.MeasurementStagesInOrder : Prop :=
  (∀ (s : State) (i m : Nat) (r : Record), s.rec? i = some r →
    s.measure i m true = s.setSlot i (some { r with F := 16 * (m : Int), L := 16 * (m : Int) }) ∧
    ∃ r', (s.measure i m false).rec? i = some r' ∧ r'.F = filterStep s.cfg r.F m ∧
      r'.fade = (fadeStep s.cfg s.nowMs (r.L - filterStep s.cfg r.F m) r.fade).1 ∧
      r'.L = (if r'.fade.state = .clear then baselineStep s.cfg r'.F r.L else r.L) ∧
      r' = { r with F := r'.F, L := r'.L, fade := r'.fade, trim := r'.trim, linkCost := r'.linkCost,
                    pathCost := r'.pathCost, eligible := r'.eligible } ∧
      (r'.fade.state = r.fade.state → r'.fade.shadow = r.fade.shadow → r'.trim = r.trim ∧ r'.pathCost = r.pathCost) ∧
      (∀ j, j ≠ i → (s.measure i m false).rec? j = s.rec? j) ∧ (s.measure i m false).host = s.host ∧
      (s.measure i m false).fwd = s.fwd ∧ (s.measure i m false).tx = s.tx ∧ (s.measure i m false).rx = s.rx) ∧
  (∀ (s : State) (i m : Nat) (r : Record), s.rec? i = some r →
    let F := filterStep s.cfg r.F m
    let f := fadeStep s.cfg s.nowMs (r.L - F) r.fade
    let r1 : Record := { r with F := F, fade := f.1, L := if f.1.state = .clear then baselineStep s.cfg F r.L else r.L }
    let u := s.setSlot i (some r1)
    (f.2 = none → s.measure i m false = u.announceFade i r.fade) ∧
    (∀ cls duration depth, f.2 = some (cls, duration, depth) → s.measure i m false =
      State.announceFade i r.fade (u.putReport r.peer (some i) (.fade cls .none duration depth r1.F r1.L)))) ∧
  (∀ (c : Settings) (F L : Int) (m : Nat), c.filterOk →
    min F (16 * (m : Int)) ≤ filterStep c F m ∧ filterStep c F m ≤ max F (16 * (m : Int)) ∧
    (F ≠ 16 * (m : Int) → |16 * (m : Int) - filterStep c F m| < |16 * (m : Int) - F|) ∧
    min L F ≤ baselineStep c F L ∧ baselineStep c F L ≤ max L F ∧
    (L ≠ F → |F - baselineStep c F L| < |F - L|)) ∧
  (∀ (c : Settings) (F L : Int),
    let d : Int := F - L
    let q : Int := Int.tdiv ((c.bBase : Int) * d) 256
    (q ≠ 0 → baselineStep c F L = L + q) ∧ (q = 0 → 0 < d → baselineStep c F L = L + 1) ∧
    (q = 0 → d < 0 → baselineStep c F L = L - 1) ∧ (d = 0 → baselineStep c F L = L))

/-- The fade machine (R76 to R83), for every state and deficit, with the fade part whole: debounced entry at the enter
level, debounced exit below the exit level, with E_in or E_out of 1 met by the first measurement. A dip that ends gives
the CLEAR row. Entry to FADED starts the fade with its two expiries, which are one where T_settle is at or below
T_brief. A held fade keeps its start, shadow flag and timers, and the deepest deficit. The end of a fade gives the
CLEAR row and the class, and no other measurement answers one. -/
def Obligations.FadeMachineDebounces : Prop :=
  (∀ (c : Settings) (now : Nat) (D : Int) (f : Fade),
    let deep : Bool := decide (16 * (c.tIn : Int) ≤ D)
    let out : Bool := decide (D < 16 * ((c.tIn : Int) - c.hyst))
    let q := (fadeStep c now D f).1
    let depth := (Int.tdiv D 16).toNat
    let deepest := max f.maxDef depth
    let clear : Fade := { state := .clear, count := 0, start := none, maxDef := 0, shadow := false, brief := none,
                          settle := none }
    let entered (d : Nat) : Fade :=
      { state := .faded, count := 0, start := some now, maxDef := d, shadow := false,
        brief := if 1000 * c.tSettle ≤ c.tBrief then none else some (now + c.tBrief),
        settle := some (now + max (1000 * c.tSettle) c.tBrief) }
    let ends := out = true ∧ (f.state = .leaving ∧ c.eOut ≤ f.count + 1 ∨ f.state = .faded ∧ c.eOut ≤ 1)
    (f.state = .clear → deep = false → q = f) ∧
    (f.state = .clear → deep = true → 1 < c.eIn → q = { f with state := .entering, count := 1, maxDef := depth }) ∧
    (f.state = .clear → deep = true → c.eIn ≤ 1 → q = entered depth) ∧
    (f.state = .entering → deep = false → q = clear) ∧
    (f.state = .entering → deep = true → f.count + 1 < c.eIn →
      q = { f with count := f.count + 1, maxDef := deepest }) ∧
    (f.state = .entering → deep = true → c.eIn ≤ f.count + 1 → q = entered deepest) ∧
    (f.state = .faded → out = false → q = { f with maxDef := deepest }) ∧
    (f.state = .faded → out = true → 1 < c.eOut → q = { f with state := .leaving, count := 1, maxDef := deepest }) ∧
    (f.state = .leaving → out = false → q = { f with state := .faded, count := 0, maxDef := deepest }) ∧
    (f.state = .leaving → out = true → f.count + 1 < c.eOut →
      q = { f with count := f.count + 1, maxDef := deepest }) ∧
    (ends → q = clear) ∧ (¬ends → (fadeStep c now D f).2 = none) ∧
    (∀ b, ends → f.start = some b →
      ((f.shadow = true ∨ c.tBrief ≤ now - b) →
        (fadeStep c now D f).2 = some (.shadowEnded, now - b, f.maxDef)) ∧
      (f.shadow = false → now - b < c.tBrief → now - b < c.tMin → (fadeStep c now D f).2 = none) ∧
      (f.shadow = false → now - b < c.tBrief → c.tMin ≤ now - b → c.dDeep ≤ f.maxDef →
        (fadeStep c now D f).2 = some (.pass, now - b, f.maxDef)) ∧
      (f.shadow = false → now - b < c.tBrief → c.tMin ≤ now - b → f.maxDef < c.dDeep →
        (fadeStep c now D f).2 = some (.blip, now - b, f.maxDef)))) ∧
  (∀ f : Fade, f.state.held = true ↔ f.state = .faded ∨ f.state = .leaving)

/-- The rate class (R104): the highest class whose margin and guard X meets, no higher than the ceiling, one lower
while a fade is held; 0 with no echo and outside UP. It is recomputed at each echo taken, at each change of fade state
or shadow flag announced and where the end of a holdoff may change p, and is 0 at admission, at reaching UP and at
loss; a change is announced, the costs following it and the next hop being reselected, and nothing is announced where
nothing changed. The link cost, the path cost and the eligible flag that follow from it (R107, R108, R109), as every
recomputation writes them. -/
def Obligations.RateClassAndCostsOfARecord : Prop :=
  (∀ (c : Settings) (r : Record),
    let K : Nat := [64, 40, 27, 20, 15, 11, 8, 7].getD r.trim.rUsed 64
    let held := r.fade.state = .faded ∨ r.fade.state = .leaving
    (r.trim.echo = none → rateUsed c r = 0) ∧ (r.link ≠ .up → rateUsed c r = 0) ∧
    rateUsed c r ≤ 7 ∧ (∀ m : Terms, r.terms = some m → rateUsed c r ≤ m.rateCeiling) ∧
    (∀ (e : Nat) (m : Terms), r.trim.echo = some e → r.terms = some m →
      let X : Int := (e : Int) - 2 * (31 - (r.trim.step : Int))
      let need (n : Nat) : Int := ([0, 16, 28, 40, 52, 68, 84, 100].getD n 0 : Nat) + (c.guard : Int)
      rateClass c r ≤ 7 ∧ rateClass c r ≤ m.rateCeiling ∧ (0 < rateClass c r → need (rateClass c r) ≤ X) ∧
      (∀ n, n ≤ 7 → n ≤ m.rateCeiling → 0 < n → need n ≤ X → n ≤ rateClass c r) ∧
      (r.link = .up → held → rateUsed c r = rateClass c r - 1) ∧
      (r.link = .up → ¬held → rateUsed c r = rateClass c r)) ∧
    ((r.costed c).linkCost = K + (if held then c.pFade else 0) + (if r.fade.shadow = true then c.pShadow else 0)) ∧
    ((r.costed c).pathCost = min 4095 (r.advert.cost + (r.costed c).linkCost)) ∧
    ((r.costed c).eligible = true ↔ r.link = .up ∧ r.advert.cost < 4095 ∧ r.advert.nextHop ≠ c.address ∧
      (r.costed c).pathCost < c.cLimit) ∧
    (r.costed c = { r with linkCost := (r.costed c).linkCost, pathCost := (r.costed c).pathCost,
                           eligible := (r.costed c).eligible }) ∧
    (∀ peer now m a, (Record.admitted c peer now m a).trim.rUsed = 0) ∧
    (∀ x, (r.reachedUp c x).trim.rUsed = 0) ∧ (r.lost c).trim.rUsed = 0) ∧
  (∀ (s : State) (i : Nat) (r : Record), s.rec? i = some r →
    let r1 := Record.costed s.cfg { r with trim := { r.trim with rUsed := rateUsed s.cfg r } }
    let same := r1.pathCost = r.pathCost ∧ r1.eligible = r.eligible
    (same → s.rerate i = s.setSlot i (some r1)) ∧ (¬same → s.rerate i = (s.setSlot i (some r1)).reselect) ∧
    (r.costed s.cfg = r → rateUsed s.cfg r = r.trim.rUsed → s.rerate i = s) ∧
    (∀ e r', r.link = .up → (s.takeEcho i e).rec? i = some r' →
      r'.trim.rUsed = rateUsed s.cfg r' ∧ r'.costed s.cfg = r') ∧
    (∀ was r', (r.fade.state ≠ was.state ∨ r.fade.shadow ≠ was.shadow) → (s.announceFade i was).rec? i = some r' →
      r'.trim.rUsed = rateUsed s.cfg r' ∧ r'.costed s.cfg = r') ∧
    (∀ e t r', s.inReset = false → r.trim.state = .holdoff → r.trim.timer = some e → e ≤ s.now →
      exec (.trimHoldoffExpiry i) s = .next t → t.rec? i = some r' →
      r'.trim.rUsed = rateUsed s.cfg r' ∧ r'.costed s.cfg = r'))

/-- A trim from its trigger to its end (R92, R93, R95 to R100, R103). Its step is the wanted one brought into 0..31,
noted where it was clamped, and leaves X within 1 qdB of the target where it was not; its outcome is the first of SET,
WEAK, STRONG and DRIFT. It starts where the record is UP, CLEAR and IDLE and X lies outside the window. An echo is taken
only by an UP record: E, then the settle count, and with K_settle echoes the outcome with its TRIM report; then the
trigger, which an echo that ends a settling and one in HOLDOFF never meet; then the rate class with what follows it. SET
leaves the trim IDLE, any other outcome holds it off for T_hold. A change into CLEAR has the trigger assessed before the
rate class (the order of the reports is log 25). -/
def Obligations.TrimSetsTheWantedStep : Prop :=
  (∀ (c : Settings) (now : Nat) (t : Trim) (e : Nat) (X : Int) (p : Nat), t.echo = some e →
    let w : Int := 31 - Int.tdiv ((e : Int) - c.mTgt) 2
    (t.started c now).step ≤ 31 ∧ (t.started c now).state = .settling ∧ (t.started c now).count = 0 ∧
    (t.started c now).timer = some (now + 1000000 * c.settleTimeout) ∧ (t.started c now).echo = some e ∧
    (t.started c now).last = t.last ∧ (t.started c now).rUsed = t.rUsed ∧
    ((t.started c now).clamped = true ↔ w < 0 ∨ 31 < w) ∧
    (0 ≤ w → w ≤ 31 → ((t.started c now).step : Int) = w ∧
      |(e : Int) - 2 * (31 - ((t.started c now).step : Int)) - c.mTgt| ≤ 1) ∧
    (w < 0 → (t.started c now).step = 0) ∧ (31 < w → (t.started c now).step = 31) ∧
    (judgeTrim c X p = .set ↔ |X - c.mTgt| ≤ c.hTrim) ∧
    (judgeTrim c X p = .weak ↔ p = 31 ∧ X < (c.mTgt : Int) - c.hTrim) ∧
    (judgeTrim c X p = .strong ↔ p = 0 ∧ (c.mTgt : Int) + c.hTrim < X) ∧
    judgeTrim c X p ≠ .silent) ∧
  (∀ (s : State) (i : Nat) (r : Record), s.rec? i = some r →
    let triggers := r.link = .up ∧ r.fade.state = .clear ∧ r.trim.state = .idle ∧
      ∃ e, r.trim.echo = some e ∧ (s.cfg.hTrim : Int) < |(e : Int) - 2 * (31 - (r.trim.step : Int)) - s.cfg.mTgt|
    (triggers → s.assessTrim i = s.setSlot i (some { r with trim := r.trim.started s.cfg s.now })) ∧
    (¬triggers → s.assessTrim i = s) ∧
    (∀ (o : TrimOutcome) (e : Nat), r.trim.echo = some e →
      let r1 : Record := { r with trim := { r.trim with
        last := some o, count := 0, state := if o = .set then .idle else .holdoff,
        timer := if o = .set then none else some (s.now + 1000000 * s.cfg.tHold) } }
      s.endTrim i o = State.putReport r.peer (some i)
        (.trim o r.trim.step r.trim.clamped e ((e : Int) - 2 * (31 - (r.trim.step : Int))) r.trim.count
          (rateUsed s.cfg r1)) (s.setSlot i (some r1))) ∧
    (∀ e : Nat,
      let taken (n : Nat) : State := s.setSlot i (some { r with trim := { r.trim with echo := some e, count := n } })
      (r.link ≠ .up → s.takeEcho i e = s) ∧
      (r.link = .up → r.trim.state = .idle → s.takeEcho i e = ((taken r.trim.count).assessTrim i).rerate i) ∧
      (r.link = .up → r.trim.state = .holdoff → s.takeEcho i e = (taken r.trim.count).rerate i) ∧
      (r.link = .up → r.trim.state = .settling → r.trim.count + 1 < s.cfg.kSettle →
        s.takeEcho i e = (taken (r.trim.count + 1)).rerate i) ∧
      (r.link = .up → r.trim.state = .settling → s.cfg.kSettle ≤ r.trim.count + 1 →
        s.takeEcho i e = ((taken (r.trim.count + 1)).endTrim i
          (judgeTrim s.cfg ((e : Int) - 2 * (31 - (r.trim.step : Int))) r.trim.step)).rerate i)) ∧
    (∀ was : Fade,
      (r.fade.state = was.state → r.fade.shadow = was.shadow → s.announceFade i was = s) ∧
      (r.fade.state = .clear → was.state ≠ .clear → s.announceFade i was = (s.assessTrim i).rerate i) ∧
      ((r.fade.state ≠ was.state ∨ r.fade.shadow ≠ was.shadow) → (r.fade.state ≠ .clear ∨ was.state = .clear) →
        s.announceFade i was = s.rerate i)))

/-- The best choice (R111): the eligible record of least path cost, the lower peer address among equals, whatever its
slot; none when none is eligible. -/
def Obligations.BestChoiceIsTheCheapestEligible : Prop :=
  ∀ s : State,
    (∀ i r, s.bestChoice = some (i, r) → s.rec? i = some r ∧ r.eligible = true ∧
      ∀ j q, s.rec? j = some q → q.eligible = true →
        r.pathCost < q.pathCost ∨ r.pathCost = q.pathCost ∧ r.peer.toNat ≤ q.peer.toNat) ∧
    (s.bestChoice = none ↔ ∀ j q, s.rec? j = some q → q.eligible = false)

/-- Reselection (R112 to R116): at a gateway none and 0; with no eligible current next hop the best choice; a current
one kept unless the best choice is better by the switch margin; the advertised cost with it; a ROUTE report when either
changed, and nothing at all when neither did. A change of next hop makes work available (R14). -/
def Obligations.ReselectionHoldsTheSwitchMargin : Prop :=
  ∀ s : State,
    let t := s.reselect
    t.slots = s.slots ∧ t.host = s.host ∧ t.fwd = s.fwd ∧ t.tx = s.tx ∧ t.rx = s.rx ∧ t.duty = s.duty ∧
      t.check = s.check ∧ t.relayed = s.relayed ∧
    (t.route = s.route → t = s) ∧
    (t.route ≠ s.route → t = State.putReport 0 (t.nextHop.map NextHop.slot)
      (.route (hopAddr t.nextHop) t.advCost (hopAddr s.nextHop) s.advCost)
      { s with nextHop := t.nextHop, advCost := t.advCost,
               workAvailable := s.workAvailable || decide (s.nextHop ≠ t.nextHop) }) ∧
    (t.route ≠ s.route → State.Reported s t 0 (t.nextHop.map NextHop.slot)
      (.route (hopAddr t.nextHop) t.advCost (hopAddr s.nextHop) s.advCost)) ∧
    (s.cfg.gateway = true → t.route = (none, 0)) ∧
    (s.cfg.gateway = false → s.currentHop = none → s.bestChoice = none → t.route = (none, 4095)) ∧
    (∀ b, s.cfg.gateway = false → s.currentHop = none → s.bestChoice = some b →
      t.route = (some { slot := b.1, addr := b.2.peer }, b.2.pathCost)) ∧
    (∀ c b, s.cfg.gateway = false → s.currentHop = some c → s.bestChoice = some b → b.1 ≠ c.1 →
      (b.2.pathCost + s.cfg.sSw ≤ c.2.pathCost → t.route = (some { slot := b.1, addr := b.2.peer }, b.2.pathCost)) ∧
      (c.2.pathCost < b.2.pathCost + s.cfg.sSw → t.route = (some { slot := c.1, addr := c.2.peer }, c.2.pathCost))) ∧
    (∀ c b, s.cfg.gateway = false → s.currentHop = some c → s.bestChoice = some b → b.1 = c.1 →
      t.route = (some { slot := c.1, addr := c.2.peer }, c.2.pathCost)) ∧
    (∀ c, s.currentHop = some c ↔ ∃ h, s.nextHop = some h ∧ h.slot = c.1 ∧ s.rec? c.1 = some c.2 ∧ c.2.peer = h.addr ∧
      c.2.eligible = true) ∧
    (∀ h, hopAddr (some h) = h.addr) ∧ hopAddr none = 0

/-- A report placed in the queue (R135, R167): a pending one with its key, of kind and address, is overwritten in
place, a DROP count adding one and stopping at 255; with none it joins at the tail while fewer than 32 stand; otherwise
it is discarded and the overrun marker set. Nothing else changes. The mark that tells an overwritten report from the
one read, and the count of discards, are the model's (log 6, log 18). -/
def Obligations.ReportsCoalesceInPlace : Prop :=
  (∀ (s : State) (a : Addr) (slot : Option Nat) (body : ReportBody),
    let other (r : Report) : Prop := r.body.kind ≠ body.kind ∨ r.addr ≠ a
    let made (b : ReportBody) : Report := { addr := a, slot := slot, body := b, stamp := s.serial }
    ((∀ r ∈ s.reports, other r) → s.reports.length < 32 →
      s.putReport a slot body = { s with reports := s.reports ++ [made body], serial := s.serial + 1 }) ∧
    ((∀ r ∈ s.reports, other r) → 32 ≤ s.reports.length →
      s.putReport a slot body = { s with overrun := true, discards := s.discards + 1 }) ∧
    (∀ l r u, s.reports = l ++ r :: u → r.body.kind = body.kind → r.addr = a → (∀ q ∈ l, other q) →
      ((∀ n g k v, body ≠ .drop n g k v) →
        s.putReport a slot body = { s with reports := l ++ made body :: u, serial := s.serial + 1 }) ∧
      (∀ n g k v n' g' k' v', r.body = .drop n g k v → body = .drop n' g' k' v' →
        s.putReport a slot body =
          { s with reports := l ++ made (.drop (min 255 (n + 1)) g' k' v') :: u, serial := s.serial + 1 }))) ∧
  (∀ b : ReportBody, b.kind = match b with
    | .started _ => .started | .neighbour _ _ _ => .neighbour | .fade _ _ _ _ _ _ => .fade
    | .trim _ _ _ _ _ _ _ => .trim | .route _ _ _ _ => .route | .drop _ _ _ _ => .drop | .check _ _ _ _ => .check
    | .duty _ _ _ => .duty)
end

