-- ==== Sys2Proof/Laws/State.lean ====
section
/-! SUPPORT. The named updates of the state, field by field: true by unfolding, so that no later proof unfolds a record
update. -/

namespace Sys2Proof.Machine

variable (s : State) (i : Nat) (o : Option Record) (t : Transaction) (b : Byte)

@[simp] theorem setSlot_slots : (s.setSlot i o).slots = s.slots.set i o := rfl
@[simp] theorem setSlot_host : (s.setSlot i o).host = s.host := rfl
@[simp] theorem setSlot_rx : (s.setSlot i o).rx = s.rx := rfl
@[simp] theorem setSlot_tx : (s.setSlot i o).tx = s.tx := rfl
@[simp] theorem setSlot_fwd : (s.setSlot i o).fwd = s.fwd := rfl
@[simp] theorem setSlot_free : (s.setSlot i o).free = s.free := rfl
@[simp] theorem setSlot_ring : (s.setSlot i o).ring = s.ring := rfl
@[simp] theorem setSlot_seen : (s.setSlot i o).seen = s.seen := rfl
@[simp] theorem setSlot_paths : (s.setSlot i o).paths = s.paths := rfl
@[simp] theorem setSlot_reports : (s.setSlot i o).reports = s.reports := rfl
@[simp] theorem setSlot_duty : (s.setSlot i o).duty = s.duty := rfl
@[simp] theorem setSlot_check : (s.setSlot i o).check = s.check := rfl
@[simp] theorem setSlot_cfg : (s.setSlot i o).cfg = s.cfg := rfl
@[simp] theorem setSlot_route : (s.setSlot i o).route = s.route := rfl
@[simp] theorem setSlot_buffers : (s.setSlot i o).buffers = s.buffers := rfl

@[simp] theorem noteWork_host : s.noteWork.host = s.host := rfl
@[simp] theorem noteWork_slots : s.noteWork.slots = s.slots := rfl
@[simp] theorem noteWork_work : s.noteWork.workAvailable = true := rfl
@[simp] theorem noteWork_buffers : s.noteWork.buffers = s.buffers := rfl

@[simp] theorem withPort_port : (s.withPort t b).port = some t := rfl
@[simp] theorem withPort_pdo : (s.withPort t b).pdo = some b := rfl
@[simp] theorem withPort_slots : (s.withPort t b).slots = s.slots := rfl
@[simp] theorem withPort_fwd : (s.withPort t b).fwd = s.fwd := rfl
@[simp] theorem withPort_free : (s.withPort t b).free = s.free := rfl
@[simp] theorem withPort_reports : (s.withPort t b).reports = s.reports := rfl

@[simp] theorem closePort_port : s.closePort.port = none := rfl
@[simp] theorem closePort_pdo : s.closePort.pdo = none := rfl
@[simp] theorem closePort_slots : s.closePort.slots = s.slots := rfl
@[simp] theorem closePort_fwd : s.closePort.fwd = s.fwd := rfl
@[simp] theorem closePort_free : s.closePort.free = s.free := rfl
@[simp] theorem closePort_reports : s.closePort.reports = s.reports := rfl
@[simp] theorem closePort_portHolds : s.closePort.portHolds = false := rfl

@[simp] theorem senderIdle_host : s.senderIdle.host = s.host := rfl
@[simp] theorem senderIdle_state : s.senderIdle.tx.state = .idle := rfl
@[simp] theorem senderIdle_chosen : s.senderIdle.tx.chosen = none := rfl
@[simp] theorem senderIdle_cw : s.senderIdle.tx.cw = s.tx.cw := rfl
@[simp] theorem senderIdle_slots : s.senderIdle.slots = s.slots := rfl
@[simp] theorem senderIdle_buffers : s.senderIdle.buffers = s.buffers := rfl

@[simp] theorem dropFrame_host : s.dropFrame.host = s.host := rfl
@[simp] theorem dropFrame_slots : s.dropFrame.slots = s.slots := rfl
@[simp] theorem dropFrame_frame : s.dropFrame.rx.frame = none := rfl
@[simp] theorem dropFrame_buffers : s.dropFrame.buffers = s.buffers := rfl

@[simp] theorem setAttention_host : s.setAttention.host = s.host := rfl
@[simp] theorem setAttention_slots : s.setAttention.slots = s.slots := rfl
@[simp] theorem setAttention_buffers : s.setAttention.buffers = s.buffers := rfl
@[simp] theorem setAttention_line : s.setAttention.attnLow = s.attention := rfl
@[simp] theorem setAttention_attention : s.setAttention.attention = s.attention := rfl

@[simp] theorem drawBelow_host (n : Nat) : (s.drawBelow n).2.host = s.host := rfl
@[simp] theorem drawBelow_slots (n : Nat) : (s.drawBelow n).2.slots = s.slots := rfl
@[simp] theorem drawBelow_buffers (n : Nat) : (s.drawBelow n).2.buffers = s.buffers := rfl

@[simp] theorem one_true : one true = 1 := rfl
@[simp] theorem one_false : one false = 0 := rfl

@[simp] theorem silenced_holds (r : Receiver) : r.silenced.holds = r.holds := rfl
@[simp] theorem silenced_frame (r : Receiver) : r.silenced.frame = none := rfl
@[simp] theorem silenced_state (r : Receiver) : r.silenced.state = .off := rfl

/-- Every draw lies in its range. -/
theorem drawBelow_lt (n : Nat) (h : 0 < n) : (s.drawBelow n).1 < n := Nat.mod_lt _ h

end Sys2Proof.Machine
end

