-- ==== Sys2Proof/Laws/Host.lean ====
section
/-! SUPPORT. The host part of the state (queue, clock, lines, station state, settings, port, latest command, sequence
counter) is left alone by every shared operation: one lemma for each, the frame the meanings' laws cite. -/

namespace Sys2Proof.Machine

/-- The host part of a state written out. -/
@[simp] theorem host_mk (p n dr se w ir at_ pd c st sg po la re ov di rx tx sl nh ac fr fw ri sn pa sq du ck) :
    (State.mk p n dr se w ir at_ pd c st sg po la re ov di rx tx sl nh ac fr fw ri sn pa sq du ck).host =
      HostPart.mk p n ir c st sg po pd la sq := rfl

/-- The host part of a state put together again. -/
@[simp] theorem host_eta (s : State) :
    HostPart.mk s.pending s.now s.inReset s.carrier s.station s.settings s.port s.pdo s.latest s.seqCounter = s.host :=
  rfl

variable (s : State)

@[simp] theorem modRec_host (i : Nat) (f : Record → Record) : (s.modRec i f).host = s.host := by
  unfold State.modRec
  (repeat' split) <;> simp

@[simp] theorem putReport_host (a : Addr) (slot : Option Nat) (body : ReportBody) : (s.putReport a slot body).host = s.host := by
  unfold State.putReport
  (repeat' split) <;> simp

@[simp] theorem returnBuffer_host : (s.returnBuffer).host = s.host := by
  unfold State.returnBuffer
  (repeat' split) <;> simp

@[simp] theorem receiverTakes_host : (s.receiverTakes).host = s.host := by
  unfold State.receiverTakes
  (repeat' split) <;> simp

@[simp] theorem reselect_host : (s.reselect).host = s.host := by
  unfold State.reselect
  (repeat' split) <;> simp

@[simp] theorem recost_host (i : Nat) : (s.recost i).host = s.host := by
  unfold State.recost
  (repeat' split) <;> simp

@[simp] theorem rerate_host (i : Nat) : (s.rerate i).host = s.host := by
  unfold State.rerate
  simp

@[simp] theorem assessTrim_host (i : Nat) : (s.assessTrim i).host = s.host := by
  unfold State.assessTrim
  simp

@[simp] theorem endTrim_host (i : Nat) (o : TrimOutcome) : (s.endTrim i o).host = s.host := by
  unfold State.endTrim
  (repeat' split) <;> simp

@[simp] theorem takeEcho_host (i e : Nat) : (s.takeEcho i e).host = s.host := by
  unfold State.takeEcho
  dsimp only
  (repeat' split) <;> simp

@[simp] theorem announceFade_host (i : Nat) (was : Fade) : (s.announceFade i was).host = s.host := by
  unfold State.announceFade
  (repeat' split) <;> simp

@[simp] theorem fadeReport_host (i : Nat) (r : Record) (k : FadeClass) (c : FadeCause) (d p : Nat) : (s.fadeReport i r k c d p).host = s.host := by
  unfold State.fadeReport
  simp

@[simp] theorem measure_host (i m : Nat) (seed : Bool) : (s.measure i m seed).host = s.host := by
  unfold State.measure
  dsimp only
  (repeat' split) <;> simp

@[simp] theorem rebuildBaseline_host (i : Nat) (c : FadeCause) (d : Nat) : (s.rebuildBaseline i c d).host = s.host := by
  unfold State.rebuildBaseline
  (repeat' split) <;> simp

@[simp] theorem endCheck_host (c : CheckCause) : (s.endCheck c).host = s.host := by
  unfold State.endCheck
  (repeat' split) <;> simp

@[simp] theorem endCheckOn_host (i : Nat) : (s.endCheckOn i).host = s.host := by
  unfold State.endCheckOn
  (repeat' split) <;> simp

@[simp] theorem withdrawReflect_host (p : Addr) : (s.withdrawReflect p).host = s.host := by
  unfold State.withdrawReflect
  (repeat' split) <;> simp

@[simp] theorem removePathsVia_host (i : Nat) : (s.removePathsVia i).host = s.host := by
  unfold State.removePathsVia
  simp

@[simp] theorem announceLoss_host (i : Nat) (p : Addr) : (s.announceLoss i p).host = s.host := by
  unfold State.announceLoss
  simp

@[simp] theorem removeRecord_host (i : Nat) (c : LinkCause) : (s.removeRecord i c).host = s.host := by
  unfold State.removeRecord
  (repeat' split) <;> simp

@[simp] theorem ageCheck_host (i : Nat) : (s.ageCheck i).host = s.host := by
  unfold State.ageCheck
  (repeat' split) <;> simp

@[simp] theorem loseLink_host (i : Nat) (c : LinkCause) : (s.loseLink i c).host = s.host := by
  unfold State.loseLink
  (repeat' split) <;> simp

@[simp] theorem noAckExhausted_host (p : Addr) : (s.noAckExhausted p).host = s.host := by
  unfold State.noAckExhausted
  (repeat' split) <;> simp

@[simp] theorem dequeue_host (id : Nat) : (s.dequeue id).host = s.host := by
  unfold State.dequeue
  simp

@[simp] theorem recordDrop_host (e : Entry) (c : DropCause) : (s.recordDrop e c).host = s.host := by
  unfold State.recordDrop
  (repeat' split) <;> simp

@[simp] theorem dropEntry_host (id : Nat) (c : DropCause) : (s.dropEntry id c).host = s.host := by
  unfold State.dropEntry
  (repeat' split) <;> simp

@[simp] theorem releaseEntry_host (id : Nat) : (s.releaseEntry id).host = s.host := by
  unfold State.releaseEntry
  (repeat' split) <;> simp

@[simp] theorem modExch_host (i : Nat) (f : Exchange → Exchange) : (s.modExch i f).host = s.host := by
  unfold State.modExch
  simp

@[simp] theorem readyPage_host (i n : Nat) : (s.readyPage i n).host = s.host := by
  unfold State.readyPage
  simp

@[simp] theorem toHeard_host (i : Nat) (c : LinkCause) (h : Nat) : (s.toHeard i c h).host = s.host := by
  unfold State.toHeard
  (repeat' split) <;> simp

@[simp] theorem requestUp_host (i : Nat) : (s.requestUp i).host = s.host := by
  unfold State.requestUp
  (repeat' split) <;> simp

@[simp] theorem beginExchange_host (i : Nat) (x : Exchange) : (s.beginExchange i x).host = s.host := by
  unfold State.beginExchange
  simp

@[simp] theorem openOn_host (i : Nat) : (s.openOn i).host = s.host := by
  unfold State.openOn
  simp

@[simp] theorem assess_host (i : Nat) : (s.assess i).host = s.host := by
  unfold State.assess
  (repeat' split) <;> simp

@[simp] theorem assessAll_host : (s.assessAll).host = s.host := by
  unfold State.assessAll
  generalize List.range 24 = l
  induction l generalizing s with
  | nil => rfl
  | cons i l ih => simp [ih]

@[simp] theorem answer_host (i : Nat) (n : Word16) (c : Nat) (f : Bool) (t : Nat) : (s.answer i n c f t).host = s.host := by
  unfold State.answer
  (repeat' split) <;> simp

@[simp] theorem refuse_host (i : Nat) (n : Word16) (c : Nat) (f : Bool) : (s.refuse i n c f).host = s.host := by
  unfold State.refuse
  simp

@[simp] theorem answerOrRefuse_host (i : Nat) (n : Word16) (c : Nat) (f : Bool) (t : Nat) : (s.answerOrRefuse i n c f t).host = s.host := by
  unfold State.answerOrRefuse
  (repeat' split) <;> simp

@[simp] theorem pagesApplied_host (i : Nat) (x : Exchange) : (s.pagesApplied i x).host = s.host := by
  unfold State.pagesApplied
  (repeat' split) <;> simp

@[simp] theorem progress_host (i : Nat) (x : Exchange) : (s.progress i x).host = s.host := by
  unfold State.progress
  simp

@[simp] theorem takePage_offeringTerm_host (i : Nat) (x : Exchange) (n k v : Nat) : ((State.takePage.offeringTerm i s x n k v).1).host = s.host := by
  unfold State.takePage.offeringTerm
  (repeat' split) <;> simp

@[simp] theorem takePage_offeringOpen_host (i : Nat) (x : Exchange) (r : Role) (f : Bool) (n : Word16) (c : Nat) (l : Bool) (t : Nat) : ((State.takePage.offeringOpen i s x r f n c l t).1).host = s.host := by
  unfold State.takePage.offeringOpen
  (repeat' split) <;> simp

@[simp] theorem takePage_host (i : Nat) (p : OfferPage) : ((s.takePage i p).1).host = s.host := by
  unfold State.takePage
  (repeat' split) <;> simp

@[simp] theorem pageAcked_host (i id : Nat) : (s.pageAcked i id).host = s.host := by
  unfold State.pageAcked
  (repeat' split) <;> simp

@[simp] theorem failExchange_host (i : Nat) : (s.failExchange i).host = s.host := by
  unfold State.failExchange
  (repeat' split) <;> simp

@[simp] theorem pageExhausted_host (i id : Nat) : (s.pageExhausted i id).host = s.host := by
  unfold State.pageExhausted
  (repeat' split) <;> simp

@[simp] theorem makeRoom_host : (s.makeRoom.1).host = s.host := by
  unfold State.makeRoom
  (repeat' split) <;> simp

@[simp] theorem admitPeer_host (p : Addr) (m : Nat) (a : Advert) : ((s.admitPeer p m a).1).host = s.host := by
  have h := makeRoom_host s
  unfold State.admitPeer
  split <;> simp_all

@[simp] theorem refresh_host (i : Nat) : ((s.refresh i).1).host = s.host := by
  unfold State.refresh
  (repeat' split) <;> simp

@[simp] theorem dutyReport_host (a b : DutyMode) (w : Bool) : (s.dutyReport a b w).host = s.host := by
  unfold State.dutyReport
  simp

@[simp] theorem activity_host : (s.activity).host = s.host := by
  unfold State.activity
  (repeat' split) <;> simp

@[simp] theorem beaconEnded_host : (s.beaconEnded).host = s.host := by
  unfold State.beaconEnded
  (repeat' split) <;> simp

@[simp] theorem readyProbe_host : (s.readyProbe).host = s.host := by
  unfold State.readyProbe
  (repeat' split) <;> simp

@[simp] theorem nextProbe_host : (s.nextProbe).host = s.host := by
  unfold State.nextProbe
  (repeat' split) <;> simp

@[simp] theorem probeSettled_host (b : Bool) : (s.probeSettled b).host = s.host := by
  unfold State.probeSettled
  dsimp only
  (repeat' split) <;> simp

@[simp] theorem takeReflect_host (a : Addr) (b : List Byte) : (s.takeReflect a b).host = s.host := by
  unfold State.takeReflect
  (repeat' split) <;> simp

@[simp] theorem takeProbe_host (i : Nat) (a : Addr) (b : List Byte) : (s.takeProbe i a b).host = s.host := by
  unfold State.takeProbe
  (repeat' split) <;> simp

@[simp] theorem probeSent_host (id : Nat) : (s.probeSent id).host = s.host := by
  unfold State.probeSent
  dsimp only
  (repeat' split) <;> simp

@[simp] theorem countAttempt_host (c : Chosen) : (s.countAttempt c).host = s.host := by
  unfold State.countAttempt
  (repeat' split) <;> simp

@[simp] theorem beginSending_host (c : Chosen) (l : Launch) : (s.beginSending c l).host = s.host := by
  unfold State.beginSending
  simp

@[simp] theorem backoffEnds_host : (s.backoffEnds).host = s.host := by
  unfold State.backoffEnds
  (repeat' split) <;> simp

@[simp] theorem enterDefer_host (c : Chosen) : (s.enterDefer c).host = s.host := by
  unfold State.enterDefer
  simp

@[simp] theorem scanQueue_host (l : List Entry) : ((scanQueue l s).1).host = s.host := by
  induction l generalizing s with
  | nil => rfl
  | cons e l ih =>
    unfold scanQueue
    split
    · rfl
    · simp [ih]
    · rw [ih]; split <;> simp

@[simp] theorem choose_host : (s.choose).host = s.host := by
  have h := scanQueue_host s s.fwd
  unfold State.choose
  split
  · simp
  · split
    · simp
    · split <;> simp_all

@[simp] theorem returnFrame_host (o : AttemptOutcome) : (s.returnFrame o).host = s.host := by
  unfold State.returnFrame
  (repeat' split) <;> simp

@[simp] theorem settleAttempt_host (o : AttemptOutcome) : (s.settleAttempt o).host = s.host := by
  unfold State.settleAttempt
  simp

@[simp] theorem syncReceiver_host : (s.syncReceiver).host = s.host := by
  unfold State.syncReceiver
  (repeat' split) <;> simp

@[simp] theorem contend_host : (s.contend).host = s.host := by
  unfold State.contend
  (repeat' split) <;> simp

@[simp] theorem chooseIfWork_host : (s.chooseIfWork).host = s.host := by
  unfold State.chooseIfWork
  (repeat' split) <;> simp

@[simp] theorem finish_host : (s.finish).host = s.host := by
  unfold State.finish
  simp

@[simp] theorem finishLinks_host : (s.finishLinks).host = s.host := by
  unfold State.finishLinks
  simp

@[simp] theorem recordAccepted_host (i : Nat) (d : DataBody) : (s.recordAccepted i d).host = s.host := by
  unfold State.recordAccepted
  simp

@[simp] theorem keepBuffer_host : (s.keepBuffer).host = s.host := by
  unfold State.keepBuffer
  simp

@[simp] theorem deliver_host (i : Nat) (d : DataBody) : ((s.deliver i d).1).host = s.host := by
  unfold State.deliver
  (repeat' split) <;> simp

@[simp] theorem relay_host (i : Nat) (d : DataBody) : ((s.relay i d).1).host = s.host := by
  unfold State.relay
  (repeat' split) <;> simp

@[simp] theorem takeData_host (i : Nat) (b : List Byte) : ((s.takeData i b).1).host = s.host := by
  unfold State.takeData
  (repeat' split) <;> simp

@[simp] theorem askAck_host (h : Header) (f : Bool) : (s.askAck h f).host = s.host := by
  unfold State.askAck
  (repeat' split) <;> simp

@[simp] theorem hear_host (f : RxFrame) (a : Option Advert) : ((s.hear f a).1).host = s.host := by
  unfold State.hear
  (repeat' split) <;> simp

@[simp] theorem observe_host (f : RxFrame) (a : Option Advert) (e : Option Nat) : ((s.observe f a e).1).host = s.host := by
  have h := hear_host s f a
  unfold State.observe
  split
  · simp_all
  · dsimp only
    split <;> simp_all

@[simp] theorem replaceAdvert_host (i : Nat) (a : Advert) : (s.replaceAdvert i a).host = s.host := by
  unfold State.replaceAdvert
  (repeat' split) <;> simp

@[simp] theorem countEchoed_host (i : Nat) (l : Bool) : (s.countEchoed i l).host = s.host := by
  unfold State.countEchoed
  (repeat' split) <;> simp

@[simp] theorem openPeerWindow_host (i : Nat) : (s.openPeerWindow i).host = s.host := by
  unfold State.openPeerWindow
  (repeat' split) <;> simp

@[simp] theorem takeBeacon_host (i : Nat) (a : Advert) (e : List EchoEntry) : (s.takeBeacon i a e).host = s.host := by
  unfold State.takeBeacon
  simp

@[simp] theorem clearStreak_host (o : Option Nat) : (s.clearStreak o).host = s.host := by
  unfold State.clearStreak
  (repeat' split) <;> simp

@[simp] theorem takeAck_host (h : Header) (o : Option Nat) : (s.takeAck h o).host = s.host := by
  unfold State.takeAck
  (repeat' split) <;> simp

@[simp] theorem dataBody_host (f : RxFrame) (o : Option Nat) (b : List Byte) : (s.dataBody f o b).host = s.host := by
  unfold State.dataBody
  split
  · split
    · rename_i i
      have h := takeData_host s i b
      split
      · split <;> simp_all
      · rfl
    · rfl
  · simp

@[simp] theorem offerBody_host (f : RxFrame) (o : Option Nat) (b : List Byte) : (s.offerBody f o b).host = s.host := by
  unfold State.offerBody
  (repeat' split) <;> simp

@[simp] theorem handBody_host (f : RxFrame) (o : Option Nat) (b : List Byte) : (s.handBody f o b).host = s.host := by
  unfold State.handBody
  (repeat' split) <;> simp

@[simp] theorem keptFrameEnds_host (f : RxFrame) (b : List Byte) : (s.keptFrameEnds f b).host = s.host := by
  unfold State.keptFrameEnds
  (repeat' split) <;> simp

@[simp] theorem acceptHeader_host (h : Header) (r : Int) : (s.acceptHeader h r).host = s.host := by
  unfold State.acceptHeader
  simp

@[simp] theorem countDown_host (n : Nat) : (s.countDown n).host = s.host := by
  unfold State.countDown
  (repeat' split) <;> simp

@[simp] theorem freeReflect_host (id : Nat) : (s.freeReflect id).host = s.host := by
  unfold State.freeReflect
  (repeat' split) <;> simp

@[simp] theorem awaitAck_host : (s.awaitAck).host = s.host := by
  unfold State.awaitAck
  simp

@[simp] theorem sent_host (c : Chosen) : (s.sent c).host = s.host := by
  unfold State.sent
  (repeat' split) <;> simp

@[simp] theorem shadowBegins_host (i : Nat) (r : Record) : (s.shadowBegins i r).host = s.host := by
  unfold State.shadowBegins
  simp

@[simp] theorem waitTest_host (e : Entry) : (s.waitTest e).host = s.host := by
  unfold State.waitTest
  (repeat' split) <;> simp

@[simp] theorem beaconFallsDue_host (d : Nat) : (s.beaconFallsDue d).host = s.host := by
  unfold State.beaconFallsDue
  simp

end Sys2Proof.Machine
end

