-- ==== Sys2Proof/Laws/Pool.lean ====
section
/-! SUPPORT. The pool (R119, R120): the buffers of all holders, through every shared operation. -/

namespace Sys2Proof.Machine

/-- The buffers of a state written out. -/
@[simp] theorem buffers_mk (p n dr se w ir at_ pd c st sg po la re ov di rx tx sl nh ac fr fw ri sn pa sq du ck) :
    (State.mk p n dr se w ir at_ pd c st sg po la re ov di rx tx sl nh ac fr fw ri sn pa sq du ck).buffers =
      fr + one rx.holds + one (holdsBuffer po) + fw.length + ri.length := rfl

/-- The buffers of a state summed again. -/
@[simp] theorem buffers_eta (s : State) :
    s.free + one s.rx.holds + one (holdsBuffer s.port) + s.fwd.length + s.ring.length = s.buffers := rfl

variable (s : State)

/-- A returning buffer joins one holder (R120). -/
theorem returnBuffer_buffers : s.returnBuffer.buffers = s.buffers + 1 := by
  unfold State.returnBuffer
  split
  · rename_i h
    have hh : s.rx.holds = false := by simpa using (Bool.and_eq_true_iff.mp h).2
    simp only [State.buffers, State.portHolds, hh, one_true, one_false]
    omega
  · simp only [State.buffers, State.portHolds]
    omega

@[simp] theorem receiverTakes_buffers : s.receiverTakes.buffers = s.buffers := by
  unfold State.receiverTakes
  split
  · rfl
  · rename_i h
    have hh : s.rx.holds = false := by simpa using h
    split
    · simp only [State.buffers, State.portHolds, hh, one_true, one_false]
      omega
    · rfl

/-- What an entry that is found leaves when it is taken out: one place fewer. -/
theorem dequeue_buffers (id : Nat) (e : Entry) (h : s.entry? id = some e) :
    (s.dequeue id).buffers + 1 = s.buffers := by
  have hm := List.mem_of_find?_eq_some h
  have hl : (s.fwd.eraseP fun e => decide (e.id = id)).length = s.fwd.length - 1 :=
    List.length_eraseP_of_mem (a := e) hm (List.find?_some (p := fun e : Entry => decide (e.id = id)) h)
  have hz := List.length_pos_of_mem hm
  simp only [State.dequeue, State.buffers, State.portHolds, hl]
  omega

@[simp] theorem modRec_buffers (i : Nat) (f : Record → Record) : (s.modRec i f).buffers = s.buffers := by
  unfold State.modRec
  (repeat' split) <;> simp

@[simp] theorem putReport_buffers (a : Addr) (slot : Option Nat) (body : ReportBody) : (s.putReport a slot body).buffers = s.buffers := by
  unfold State.putReport
  (repeat' split) <;> simp

@[simp] theorem reselect_buffers : (s.reselect).buffers = s.buffers := by
  unfold State.reselect
  (repeat' split) <;> simp

@[simp] theorem recost_buffers (i : Nat) : (s.recost i).buffers = s.buffers := by
  unfold State.recost
  (repeat' split) <;> simp

@[simp] theorem rerate_buffers (i : Nat) : (s.rerate i).buffers = s.buffers := by
  unfold State.rerate
  simp

@[simp] theorem assessTrim_buffers (i : Nat) : (s.assessTrim i).buffers = s.buffers := by
  unfold State.assessTrim
  simp

@[simp] theorem endTrim_buffers (i : Nat) (o : TrimOutcome) : (s.endTrim i o).buffers = s.buffers := by
  unfold State.endTrim
  (repeat' split) <;> simp

@[simp] theorem takeEcho_buffers (i e : Nat) : (s.takeEcho i e).buffers = s.buffers := by
  unfold State.takeEcho
  dsimp only
  (repeat' split) <;> simp

@[simp] theorem announceFade_buffers (i : Nat) (was : Fade) : (s.announceFade i was).buffers = s.buffers := by
  unfold State.announceFade
  (repeat' split) <;> simp

@[simp] theorem fadeReport_buffers (i : Nat) (r : Record) (k : FadeClass) (c : FadeCause) (d p : Nat) : (s.fadeReport i r k c d p).buffers = s.buffers := by
  unfold State.fadeReport
  simp

@[simp] theorem measure_buffers (i m : Nat) (seed : Bool) : (s.measure i m seed).buffers = s.buffers := by
  unfold State.measure
  dsimp only
  (repeat' split) <;> simp

@[simp] theorem rebuildBaseline_buffers (i : Nat) (c : FadeCause) (d : Nat) : (s.rebuildBaseline i c d).buffers = s.buffers := by
  unfold State.rebuildBaseline
  (repeat' split) <;> simp

@[simp] theorem endCheck_buffers (c : CheckCause) : (s.endCheck c).buffers = s.buffers := by
  unfold State.endCheck
  (repeat' split) <;> simp

@[simp] theorem endCheckOn_buffers (i : Nat) : (s.endCheckOn i).buffers = s.buffers := by
  unfold State.endCheckOn
  (repeat' split) <;> simp

@[simp] theorem withdrawReflect_buffers (p : Addr) : (s.withdrawReflect p).buffers = s.buffers := by
  unfold State.withdrawReflect
  (repeat' split) <;> simp

@[simp] theorem removePathsVia_buffers (i : Nat) : (s.removePathsVia i).buffers = s.buffers := by
  unfold State.removePathsVia
  simp

@[simp] theorem announceLoss_buffers (i : Nat) (p : Addr) : (s.announceLoss i p).buffers = s.buffers := by
  unfold State.announceLoss
  simp

@[simp] theorem removeRecord_buffers (i : Nat) (c : LinkCause) : (s.removeRecord i c).buffers = s.buffers := by
  unfold State.removeRecord
  (repeat' split) <;> simp

@[simp] theorem ageCheck_buffers (i : Nat) : (s.ageCheck i).buffers = s.buffers := by
  unfold State.ageCheck
  (repeat' split) <;> simp

@[simp] theorem loseLink_buffers (i : Nat) (c : LinkCause) : (s.loseLink i c).buffers = s.buffers := by
  unfold State.loseLink
  (repeat' split) <;> simp

@[simp] theorem noAckExhausted_buffers (p : Addr) : (s.noAckExhausted p).buffers = s.buffers := by
  unfold State.noAckExhausted
  (repeat' split) <;> simp

@[simp] theorem recordDrop_buffers (e : Entry) (c : DropCause) : (s.recordDrop e c).buffers = s.buffers := by
  unfold State.recordDrop
  (repeat' split) <;> simp

@[simp] theorem dropEntry_buffers (id : Nat) (c : DropCause) : (s.dropEntry id c).buffers = s.buffers := by
  unfold State.dropEntry
  split
  · rfl
  · rename_i e h
    rw [recordDrop_buffers, returnBuffer_buffers, dequeue_buffers s id e h]

@[simp] theorem releaseEntry_buffers (id : Nat) : (s.releaseEntry id).buffers = s.buffers := by
  unfold State.releaseEntry
  split
  · rfl
  · rename_i e h
    rw [returnBuffer_buffers, dequeue_buffers s id e h]

@[simp] theorem modExch_buffers (i : Nat) (f : Exchange → Exchange) : (s.modExch i f).buffers = s.buffers := by
  unfold State.modExch
  simp

@[simp] theorem readyPage_buffers (i n : Nat) : (s.readyPage i n).buffers = s.buffers := by
  unfold State.readyPage
  simp

@[simp] theorem toHeard_buffers (i : Nat) (c : LinkCause) (h : Nat) : (s.toHeard i c h).buffers = s.buffers := by
  unfold State.toHeard
  (repeat' split) <;> simp

@[simp] theorem requestUp_buffers (i : Nat) : (s.requestUp i).buffers = s.buffers := by
  unfold State.requestUp
  (repeat' split) <;> simp

@[simp] theorem beginExchange_buffers (i : Nat) (x : Exchange) : (s.beginExchange i x).buffers = s.buffers := by
  unfold State.beginExchange
  simp

@[simp] theorem openOn_buffers (i : Nat) : (s.openOn i).buffers = s.buffers := by
  unfold State.openOn
  simp

@[simp] theorem assess_buffers (i : Nat) : (s.assess i).buffers = s.buffers := by
  unfold State.assess
  (repeat' split) <;> simp

@[simp] theorem assessAll_buffers : (s.assessAll).buffers = s.buffers := by
  unfold State.assessAll
  generalize List.range 24 = l
  induction l generalizing s with
  | nil => rfl
  | cons i l ih => simp [ih]

@[simp] theorem answer_buffers (i : Nat) (n : Word16) (c : Nat) (f : Bool) (t : Nat) : (s.answer i n c f t).buffers = s.buffers := by
  unfold State.answer
  (repeat' split) <;> simp

@[simp] theorem refuse_buffers (i : Nat) (n : Word16) (c : Nat) (f : Bool) : (s.refuse i n c f).buffers = s.buffers := by
  unfold State.refuse
  simp

@[simp] theorem answerOrRefuse_buffers (i : Nat) (n : Word16) (c : Nat) (f : Bool) (t : Nat) : (s.answerOrRefuse i n c f t).buffers = s.buffers := by
  unfold State.answerOrRefuse
  (repeat' split) <;> simp

@[simp] theorem pagesApplied_buffers (i : Nat) (x : Exchange) : (s.pagesApplied i x).buffers = s.buffers := by
  unfold State.pagesApplied
  (repeat' split) <;> simp

@[simp] theorem progress_buffers (i : Nat) (x : Exchange) : (s.progress i x).buffers = s.buffers := by
  unfold State.progress
  simp

@[simp] theorem takePage_offeringTerm_buffers (i : Nat) (x : Exchange) (n k v : Nat) : ((State.takePage.offeringTerm i s x n k v).1).buffers = s.buffers := by
  unfold State.takePage.offeringTerm
  (repeat' split) <;> simp

@[simp] theorem takePage_offeringOpen_buffers (i : Nat) (x : Exchange) (r : Role) (f : Bool) (n : Word16) (c : Nat) (l : Bool) (t : Nat) : ((State.takePage.offeringOpen i s x r f n c l t).1).buffers = s.buffers := by
  unfold State.takePage.offeringOpen
  (repeat' split) <;> simp

@[simp] theorem takePage_buffers (i : Nat) (p : OfferPage) : ((s.takePage i p).1).buffers = s.buffers := by
  unfold State.takePage
  (repeat' split) <;> simp

@[simp] theorem pageAcked_buffers (i id : Nat) : (s.pageAcked i id).buffers = s.buffers := by
  unfold State.pageAcked
  (repeat' split) <;> simp

@[simp] theorem failExchange_buffers (i : Nat) : (s.failExchange i).buffers = s.buffers := by
  unfold State.failExchange
  (repeat' split) <;> simp

@[simp] theorem pageExhausted_buffers (i id : Nat) : (s.pageExhausted i id).buffers = s.buffers := by
  unfold State.pageExhausted
  (repeat' split) <;> simp

@[simp] theorem makeRoom_buffers : (s.makeRoom.1).buffers = s.buffers := by
  unfold State.makeRoom
  (repeat' split) <;> simp

@[simp] theorem admitPeer_buffers (p : Addr) (m : Nat) (a : Advert) : ((s.admitPeer p m a).1).buffers = s.buffers := by
  have h := makeRoom_buffers s
  unfold State.admitPeer
  split <;> simp_all

@[simp] theorem refresh_buffers (i : Nat) : ((s.refresh i).1).buffers = s.buffers := by
  unfold State.refresh
  (repeat' split) <;> simp

@[simp] theorem dutyReport_buffers (a b : DutyMode) (w : Bool) : (s.dutyReport a b w).buffers = s.buffers := by
  unfold State.dutyReport
  simp

@[simp] theorem activity_buffers : (s.activity).buffers = s.buffers := by
  unfold State.activity
  (repeat' split) <;> simp

@[simp] theorem beaconEnded_buffers : (s.beaconEnded).buffers = s.buffers := by
  unfold State.beaconEnded
  (repeat' split) <;> simp

@[simp] theorem readyProbe_buffers : (s.readyProbe).buffers = s.buffers := by
  unfold State.readyProbe
  (repeat' split) <;> simp

@[simp] theorem nextProbe_buffers : (s.nextProbe).buffers = s.buffers := by
  unfold State.nextProbe
  (repeat' split) <;> simp

@[simp] theorem probeSettled_buffers (b : Bool) : (s.probeSettled b).buffers = s.buffers := by
  unfold State.probeSettled
  dsimp only
  (repeat' split) <;> simp

@[simp] theorem takeReflect_buffers (a : Addr) (b : List Byte) : (s.takeReflect a b).buffers = s.buffers := by
  unfold State.takeReflect
  (repeat' split) <;> simp

@[simp] theorem takeProbe_buffers (i : Nat) (a : Addr) (b : List Byte) : (s.takeProbe i a b).buffers = s.buffers := by
  unfold State.takeProbe
  (repeat' split) <;> simp

@[simp] theorem probeSent_buffers (id : Nat) : (s.probeSent id).buffers = s.buffers := by
  unfold State.probeSent
  dsimp only
  (repeat' split) <;> simp

@[simp] theorem countAttempt_buffers (c : Chosen) : (s.countAttempt c).buffers = s.buffers := by
  unfold State.countAttempt
  (repeat' split) <;> simp

@[simp] theorem beginSending_buffers (c : Chosen) (l : Launch) : (s.beginSending c l).buffers = s.buffers := by
  rw [← countAttempt_buffers s c]
  simp [State.beginSending, -countAttempt_buffers]

@[simp] theorem backoffEnds_buffers : (s.backoffEnds).buffers = s.buffers := by
  unfold State.backoffEnds
  (repeat' split) <;> simp

@[simp] theorem enterDefer_buffers (c : Chosen) : (s.enterDefer c).buffers = s.buffers := by
  unfold State.enterDefer
  simp

@[simp] theorem scanQueue_buffers (l : List Entry) : ((scanQueue l s).1).buffers = s.buffers := by
  induction l generalizing s with
  | nil => rfl
  | cons e l ih =>
    unfold scanQueue
    split
    · rfl
    · simp [ih]
    · rw [ih]; split <;> simp

@[simp] theorem choose_buffers : (s.choose).buffers = s.buffers := by
  have h := scanQueue_buffers s s.fwd
  unfold State.choose
  split
  · simp
  · split
    · simp
    · split <;> simp_all

@[simp] theorem returnFrame_buffers (o : AttemptOutcome) : (s.returnFrame o).buffers = s.buffers := by
  unfold State.returnFrame
  (repeat' split) <;> simp

@[simp] theorem settleAttempt_buffers (o : AttemptOutcome) : (s.settleAttempt o).buffers = s.buffers := by
  unfold State.settleAttempt
  simp

@[simp] theorem syncReceiver_buffers : (s.syncReceiver).buffers = s.buffers := by
  unfold State.syncReceiver
  (repeat' split) <;> simp

@[simp] theorem contend_buffers : (s.contend).buffers = s.buffers := by
  unfold State.contend
  (repeat' split) <;> simp

@[simp] theorem chooseIfWork_buffers : (s.chooseIfWork).buffers = s.buffers := by
  unfold State.chooseIfWork
  (repeat' split) <;> simp

@[simp] theorem finish_buffers : (s.finish).buffers = s.buffers := by
  unfold State.finish
  simp

@[simp] theorem finishLinks_buffers : (s.finishLinks).buffers = s.buffers := by
  unfold State.finishLinks
  simp

@[simp] theorem recordAccepted_buffers (i : Nat) (d : DataBody) : (s.recordAccepted i d).buffers = s.buffers := by
  unfold State.recordAccepted
  simp

@[simp] theorem askAck_buffers (h : Header) (f : Bool) : (s.askAck h f).buffers = s.buffers := by
  unfold State.askAck
  (repeat' split) <;> simp

@[simp] theorem hear_buffers (f : RxFrame) (a : Option Advert) : ((s.hear f a).1).buffers = s.buffers := by
  unfold State.hear
  (repeat' split) <;> simp

@[simp] theorem observe_buffers (f : RxFrame) (a : Option Advert) (e : Option Nat) : ((s.observe f a e).1).buffers = s.buffers := by
  have h := hear_buffers s f a
  unfold State.observe
  split
  · simp_all
  · dsimp only
    split <;> simp_all

@[simp] theorem replaceAdvert_buffers (i : Nat) (a : Advert) : (s.replaceAdvert i a).buffers = s.buffers := by
  unfold State.replaceAdvert
  (repeat' split) <;> simp

@[simp] theorem countEchoed_buffers (i : Nat) (l : Bool) : (s.countEchoed i l).buffers = s.buffers := by
  unfold State.countEchoed
  (repeat' split) <;> simp

@[simp] theorem openPeerWindow_buffers (i : Nat) : (s.openPeerWindow i).buffers = s.buffers := by
  unfold State.openPeerWindow
  (repeat' split) <;> simp

@[simp] theorem takeBeacon_buffers (i : Nat) (a : Advert) (e : List EchoEntry) : (s.takeBeacon i a e).buffers = s.buffers := by
  unfold State.takeBeacon
  simp

@[simp] theorem clearStreak_buffers (o : Option Nat) : (s.clearStreak o).buffers = s.buffers := by
  unfold State.clearStreak
  (repeat' split) <;> simp

@[simp] theorem takeAck_buffers (h : Header) (o : Option Nat) : (s.takeAck h o).buffers = s.buffers := by
  unfold State.takeAck
  (repeat' split) <;> simp

@[simp] theorem offerBody_buffers (f : RxFrame) (o : Option Nat) (b : List Byte) : (s.offerBody f o b).buffers = s.buffers := by
  unfold State.offerBody
  (repeat' split) <;> simp

@[simp] theorem acceptHeader_buffers (h : Header) (r : Int) : (s.acceptHeader h r).buffers = s.buffers := by
  unfold State.acceptHeader
  simp

@[simp] theorem countDown_buffers (n : Nat) : (s.countDown n).buffers = s.buffers := by
  unfold State.countDown
  (repeat' split) <;> simp

@[simp] theorem freeReflect_buffers (id : Nat) : (s.freeReflect id).buffers = s.buffers := by
  unfold State.freeReflect
  (repeat' split) <;> simp

@[simp] theorem awaitAck_buffers : (s.awaitAck).buffers = s.buffers := by
  unfold State.awaitAck
  simp

@[simp] theorem sent_buffers (c : Chosen) : (s.sent c).buffers = s.buffers := by
  unfold State.sent
  (repeat' split) <;> simp

@[simp] theorem shadowBegins_buffers (i : Nat) (r : Record) : (s.shadowBegins i r).buffers = s.buffers := by
  unfold State.shadowBegins
  simp

@[simp] theorem waitTest_buffers (e : Entry) : (s.waitTest e).buffers = s.buffers := by
  unfold State.waitTest
  (repeat' split) <;> simp

@[simp] theorem beaconFallsDue_buffers (d : Nat) : (s.beaconFallsDue d).buffers = s.buffers := by
  unfold State.beaconFallsDue
  simp

/-- The buffer kept: one buffer leaves the receiver, which replaces it (R13). -/
theorem keepBuffer_buffers (h : s.rx.holds = true) : s.keepBuffer.buffers + 1 = s.buffers := by
  unfold State.keepBuffer
  rw [receiverTakes_buffers]
  simp only [State.buffers, State.portHolds, h, one_true, one_false]
  omega

/-- Delivery keeps every buffer in one holder's hands (R125). -/
theorem deliver_buffers (i : Nat) (d : DataBody) (h : s.rx.holds = true) : (s.deliver i d).1.buffers = s.buffers := by
  unfold State.deliver
  split
  · have hk := keepBuffer_buffers (State.recordAccepted i d
      { s with ring := s.ring ++ [{ origin := d.origin, seq := d.seq, payload := d.payload }] }) h
    dsimp only
    have hs : ({ s with ring := s.ring ++ [{ origin := d.origin, seq := d.seq, payload := d.payload }] } : State).buffers
        = s.buffers + 1 := by
      simp only [State.buffers, State.portHolds, List.length_append, List.length_singleton]
      omega
    rw [recordAccepted_buffers, hs] at hk
    omega
  · rfl

/-- Relay keeps every buffer in one holder's hands (R126). -/
theorem relay_buffers (i : Nat) (d : DataBody) (h : s.rx.holds = true) : (s.relay i d).1.buffers = s.buffers := by
  unfold State.relay
  split
  · simp
  · split
    · dsimp only
      have hk := keepBuffer_buffers (State.recordAccepted i d
        { s with
          fwd := s.fwd ++ [{ id := s.serial, origin := d.origin, dest := d.dest, seq := d.seq, hop := d.hop - 1,
                             tag := none, attempts := 0, entered := s.nowMs, source := some i, payload := d.payload,
                             waitDue := true }],
          serial := s.serial + 1 }) h
      rw [recordAccepted_buffers] at hk
      refine Nat.succ_injective (hk.trans ?_)
      simp only [State.buffers, State.portHolds, List.length_append, List.length_singleton]
      omega
    · rfl

/-- The Relay Unit's taking of a body that the receiver holds keeps every buffer in one holder's hands. -/
theorem takeData_buffers (i : Nat) (b : List Byte) (h : s.rx.holds = true) :
    (s.takeData i b).1.buffers = s.buffers := by
  unfold State.takeData
  split
  · split
    · rfl
    · split
      · simp
      · split
        · simp
        · split
          · exact deliver_buffers s i _ h
          · exact relay_buffers s i _ h
  · rfl

end Sys2Proof.Machine
end

