-- ==== Sys2Proof/Laws/Shape.lean ====
section
/-! SUPPORT. Shapes every shared operation keeps: the 24 slots of the table, and a stored body's buffer. -/

namespace Sys2Proof.Machine

/-- The soundness of the receiver of a state written out. -/
@[simp] theorem rxSound_mk (p n dr se w ir at_ pd c st sg po la re ov di rx tx sl nh ac fr fw ri sn pa sq du ck) :
    (State.mk p n dr se w ir at_ pd c st sg po la re ov di rx tx sl nh ac fr fw ri sn pa sq du ck).rxSound =
      rx.sound := rfl

/-- The soundness of a state's receiver. -/
@[simp] theorem rxSound_eta (s : State) : s.rx.sound = s.rxSound := rfl

@[simp] theorem silenced_sound (r : Receiver) : r.silenced.sound = true := rfl

@[simp] theorem setSlot_rxSound (s : State) (i : Nat) (o : Option Record) : (s.setSlot i o).rxSound = s.rxSound := rfl

@[simp] theorem noteWork_rxSound (s : State) : s.noteWork.rxSound = s.rxSound := rfl

@[simp] theorem senderIdle_rxSound (s : State) : s.senderIdle.rxSound = s.rxSound := rfl

@[simp] theorem setAttention_rxSound (s : State) : s.setAttention.rxSound = s.rxSound := rfl

@[simp] theorem drawBelow_rxSound (s : State) (n : Nat) : (s.drawBelow n).2.rxSound = s.rxSound := rfl

@[simp] theorem dropFrame_rxSound (s : State) : s.dropFrame.rxSound = true := rfl

variable (s : State)

/-! ## The slots -/

@[simp] theorem modRec_slotCount (i : Nat) (f : Record → Record) : (s.modRec i f).slots.length = s.slots.length := by
  unfold State.modRec
  (repeat' split) <;> simp

@[simp] theorem putReport_slotCount (a : Addr) (slot : Option Nat) (body : ReportBody) : (s.putReport a slot body).slots.length = s.slots.length := by
  unfold State.putReport
  (repeat' split) <;> simp

@[simp] theorem returnBuffer_slotCount : (s.returnBuffer).slots.length = s.slots.length := by
  unfold State.returnBuffer
  (repeat' split) <;> simp

@[simp] theorem receiverTakes_slotCount : (s.receiverTakes).slots.length = s.slots.length := by
  unfold State.receiverTakes
  (repeat' split) <;> simp

@[simp] theorem reselect_slotCount : (s.reselect).slots.length = s.slots.length := by
  unfold State.reselect
  (repeat' split) <;> simp

@[simp] theorem recost_slotCount (i : Nat) : (s.recost i).slots.length = s.slots.length := by
  unfold State.recost
  (repeat' split) <;> simp

@[simp] theorem rerate_slotCount (i : Nat) : (s.rerate i).slots.length = s.slots.length := by
  unfold State.rerate
  simp

@[simp] theorem assessTrim_slotCount (i : Nat) : (s.assessTrim i).slots.length = s.slots.length := by
  unfold State.assessTrim
  simp

@[simp] theorem endTrim_slotCount (i : Nat) (o : TrimOutcome) : (s.endTrim i o).slots.length = s.slots.length := by
  unfold State.endTrim
  (repeat' split) <;> simp

@[simp] theorem takeEcho_slotCount (i e : Nat) : (s.takeEcho i e).slots.length = s.slots.length := by
  unfold State.takeEcho
  dsimp only
  (repeat' split) <;> simp

@[simp] theorem announceFade_slotCount (i : Nat) (was : Fade) : (s.announceFade i was).slots.length = s.slots.length := by
  unfold State.announceFade
  (repeat' split) <;> simp

@[simp] theorem fadeReport_slotCount (i : Nat) (r : Record) (k : FadeClass) (c : FadeCause) (d p : Nat) : (s.fadeReport i r k c d p).slots.length = s.slots.length := by
  unfold State.fadeReport
  simp

@[simp] theorem measure_slotCount (i m : Nat) (seed : Bool) : (s.measure i m seed).slots.length = s.slots.length := by
  unfold State.measure
  dsimp only
  (repeat' split) <;> simp

@[simp] theorem rebuildBaseline_slotCount (i : Nat) (c : FadeCause) (d : Nat) : (s.rebuildBaseline i c d).slots.length = s.slots.length := by
  unfold State.rebuildBaseline
  (repeat' split) <;> simp

@[simp] theorem endCheck_slotCount (c : CheckCause) : (s.endCheck c).slots.length = s.slots.length := by
  unfold State.endCheck
  (repeat' split) <;> simp

@[simp] theorem endCheckOn_slotCount (i : Nat) : (s.endCheckOn i).slots.length = s.slots.length := by
  unfold State.endCheckOn
  (repeat' split) <;> simp

@[simp] theorem withdrawReflect_slotCount (p : Addr) : (s.withdrawReflect p).slots.length = s.slots.length := by
  unfold State.withdrawReflect
  (repeat' split) <;> simp

@[simp] theorem removePathsVia_slotCount (i : Nat) : (s.removePathsVia i).slots.length = s.slots.length := by
  unfold State.removePathsVia
  simp

@[simp] theorem announceLoss_slotCount (i : Nat) (p : Addr) : (s.announceLoss i p).slots.length = s.slots.length := by
  unfold State.announceLoss
  simp

@[simp] theorem removeRecord_slotCount (i : Nat) (c : LinkCause) : (s.removeRecord i c).slots.length = s.slots.length := by
  unfold State.removeRecord
  (repeat' split) <;> simp

@[simp] theorem ageCheck_slotCount (i : Nat) : (s.ageCheck i).slots.length = s.slots.length := by
  unfold State.ageCheck
  (repeat' split) <;> simp

@[simp] theorem loseLink_slotCount (i : Nat) (c : LinkCause) : (s.loseLink i c).slots.length = s.slots.length := by
  unfold State.loseLink
  (repeat' split) <;> simp

@[simp] theorem noAckExhausted_slotCount (p : Addr) : (s.noAckExhausted p).slots.length = s.slots.length := by
  unfold State.noAckExhausted
  (repeat' split) <;> simp

@[simp] theorem dequeue_slotCount (id : Nat) : (s.dequeue id).slots.length = s.slots.length := by
  unfold State.dequeue
  simp

@[simp] theorem recordDrop_slotCount (e : Entry) (c : DropCause) : (s.recordDrop e c).slots.length = s.slots.length := by
  unfold State.recordDrop
  (repeat' split) <;> simp

@[simp] theorem dropEntry_slotCount (id : Nat) (c : DropCause) : (s.dropEntry id c).slots.length = s.slots.length := by
  unfold State.dropEntry
  (repeat' split) <;> simp

@[simp] theorem releaseEntry_slotCount (id : Nat) : (s.releaseEntry id).slots.length = s.slots.length := by
  unfold State.releaseEntry
  (repeat' split) <;> simp

@[simp] theorem modExch_slotCount (i : Nat) (f : Exchange → Exchange) : (s.modExch i f).slots.length = s.slots.length := by
  unfold State.modExch
  simp

@[simp] theorem readyPage_slotCount (i n : Nat) : (s.readyPage i n).slots.length = s.slots.length := by
  unfold State.readyPage
  simp

@[simp] theorem toHeard_slotCount (i : Nat) (c : LinkCause) (h : Nat) : (s.toHeard i c h).slots.length = s.slots.length := by
  unfold State.toHeard
  (repeat' split) <;> simp

@[simp] theorem requestUp_slotCount (i : Nat) : (s.requestUp i).slots.length = s.slots.length := by
  unfold State.requestUp
  (repeat' split) <;> simp

@[simp] theorem beginExchange_slotCount (i : Nat) (x : Exchange) : (s.beginExchange i x).slots.length = s.slots.length := by
  unfold State.beginExchange
  simp

@[simp] theorem openOn_slotCount (i : Nat) : (s.openOn i).slots.length = s.slots.length := by
  unfold State.openOn
  simp

@[simp] theorem assess_slotCount (i : Nat) : (s.assess i).slots.length = s.slots.length := by
  unfold State.assess
  (repeat' split) <;> simp

@[simp] theorem assessAll_slotCount : (s.assessAll).slots.length = s.slots.length := by
  unfold State.assessAll
  generalize List.range 24 = l
  induction l generalizing s with
  | nil => rfl
  | cons i l ih => simp [ih]

@[simp] theorem answer_slotCount (i : Nat) (n : Word16) (c : Nat) (f : Bool) (t : Nat) : (s.answer i n c f t).slots.length = s.slots.length := by
  unfold State.answer
  (repeat' split) <;> simp

@[simp] theorem refuse_slotCount (i : Nat) (n : Word16) (c : Nat) (f : Bool) : (s.refuse i n c f).slots.length = s.slots.length := by
  unfold State.refuse
  simp

@[simp] theorem answerOrRefuse_slotCount (i : Nat) (n : Word16) (c : Nat) (f : Bool) (t : Nat) : (s.answerOrRefuse i n c f t).slots.length = s.slots.length := by
  unfold State.answerOrRefuse
  (repeat' split) <;> simp

@[simp] theorem pagesApplied_slotCount (i : Nat) (x : Exchange) : (s.pagesApplied i x).slots.length = s.slots.length := by
  unfold State.pagesApplied
  (repeat' split) <;> simp

@[simp] theorem progress_slotCount (i : Nat) (x : Exchange) : (s.progress i x).slots.length = s.slots.length := by
  unfold State.progress
  simp

@[simp] theorem takePage_offeringTerm_slotCount (i : Nat) (x : Exchange) (n k v : Nat) : ((State.takePage.offeringTerm i s x n k v).1).slots.length = s.slots.length := by
  unfold State.takePage.offeringTerm
  (repeat' split) <;> simp

@[simp] theorem takePage_offeringOpen_slotCount (i : Nat) (x : Exchange) (r : Role) (f : Bool) (n : Word16) (c : Nat) (l : Bool) (t : Nat) : ((State.takePage.offeringOpen i s x r f n c l t).1).slots.length = s.slots.length := by
  unfold State.takePage.offeringOpen
  (repeat' split) <;> simp

@[simp] theorem takePage_slotCount (i : Nat) (p : OfferPage) : ((s.takePage i p).1).slots.length = s.slots.length := by
  unfold State.takePage
  (repeat' split) <;> simp

@[simp] theorem pageAcked_slotCount (i id : Nat) : (s.pageAcked i id).slots.length = s.slots.length := by
  unfold State.pageAcked
  (repeat' split) <;> simp

@[simp] theorem failExchange_slotCount (i : Nat) : (s.failExchange i).slots.length = s.slots.length := by
  unfold State.failExchange
  (repeat' split) <;> simp

@[simp] theorem pageExhausted_slotCount (i id : Nat) : (s.pageExhausted i id).slots.length = s.slots.length := by
  unfold State.pageExhausted
  (repeat' split) <;> simp

@[simp] theorem makeRoom_slotCount : (s.makeRoom.1).slots.length = s.slots.length := by
  unfold State.makeRoom
  (repeat' split) <;> simp

@[simp] theorem admitPeer_slotCount (p : Addr) (m : Nat) (a : Advert) : ((s.admitPeer p m a).1).slots.length = s.slots.length := by
  have h := makeRoom_slotCount s
  unfold State.admitPeer
  split <;> simp_all

@[simp] theorem refresh_slotCount (i : Nat) : ((s.refresh i).1).slots.length = s.slots.length := by
  unfold State.refresh
  (repeat' split) <;> simp

@[simp] theorem dutyReport_slotCount (a b : DutyMode) (w : Bool) : (s.dutyReport a b w).slots.length = s.slots.length := by
  unfold State.dutyReport
  simp

@[simp] theorem activity_slotCount : (s.activity).slots.length = s.slots.length := by
  unfold State.activity
  (repeat' split) <;> simp

@[simp] theorem beaconEnded_slotCount : (s.beaconEnded).slots.length = s.slots.length := by
  unfold State.beaconEnded
  (repeat' split) <;> simp

@[simp] theorem readyProbe_slotCount : (s.readyProbe).slots.length = s.slots.length := by
  unfold State.readyProbe
  (repeat' split) <;> simp

@[simp] theorem nextProbe_slotCount : (s.nextProbe).slots.length = s.slots.length := by
  unfold State.nextProbe
  (repeat' split) <;> simp

@[simp] theorem probeSettled_slotCount (b : Bool) : (s.probeSettled b).slots.length = s.slots.length := by
  unfold State.probeSettled
  dsimp only
  (repeat' split) <;> simp

@[simp] theorem takeReflect_slotCount (a : Addr) (b : List Byte) : (s.takeReflect a b).slots.length = s.slots.length := by
  unfold State.takeReflect
  (repeat' split) <;> simp

@[simp] theorem takeProbe_slotCount (i : Nat) (a : Addr) (b : List Byte) : (s.takeProbe i a b).slots.length = s.slots.length := by
  unfold State.takeProbe
  (repeat' split) <;> simp

@[simp] theorem probeSent_slotCount (id : Nat) : (s.probeSent id).slots.length = s.slots.length := by
  unfold State.probeSent
  dsimp only
  (repeat' split) <;> simp

@[simp] theorem countAttempt_slotCount (c : Chosen) : (s.countAttempt c).slots.length = s.slots.length := by
  unfold State.countAttempt
  (repeat' split) <;> simp

@[simp] theorem beginSending_slotCount (c : Chosen) (l : Launch) : (s.beginSending c l).slots.length = s.slots.length := by
  unfold State.beginSending
  simp

@[simp] theorem backoffEnds_slotCount : (s.backoffEnds).slots.length = s.slots.length := by
  unfold State.backoffEnds
  (repeat' split) <;> simp

@[simp] theorem enterDefer_slotCount (c : Chosen) : (s.enterDefer c).slots.length = s.slots.length := by
  unfold State.enterDefer
  simp

@[simp] theorem scanQueue_slotCount (l : List Entry) : ((scanQueue l s).1).slots.length = s.slots.length := by
  induction l generalizing s with
  | nil => rfl
  | cons e l ih =>
    unfold scanQueue
    split
    · rfl
    · simp [ih]
    · rw [ih]; split <;> simp

@[simp] theorem choose_slotCount : (s.choose).slots.length = s.slots.length := by
  have h := scanQueue_slotCount s s.fwd
  unfold State.choose
  split
  · simp
  · split
    · simp
    · split <;> simp_all

@[simp] theorem returnFrame_slotCount (o : AttemptOutcome) : (s.returnFrame o).slots.length = s.slots.length := by
  unfold State.returnFrame
  (repeat' split) <;> simp

@[simp] theorem settleAttempt_slotCount (o : AttemptOutcome) : (s.settleAttempt o).slots.length = s.slots.length := by
  unfold State.settleAttempt
  simp

@[simp] theorem syncReceiver_slotCount : (s.syncReceiver).slots.length = s.slots.length := by
  unfold State.syncReceiver
  (repeat' split) <;> simp

@[simp] theorem contend_slotCount : (s.contend).slots.length = s.slots.length := by
  unfold State.contend
  (repeat' split) <;> simp

@[simp] theorem chooseIfWork_slotCount : (s.chooseIfWork).slots.length = s.slots.length := by
  unfold State.chooseIfWork
  (repeat' split) <;> simp

@[simp] theorem finish_slotCount : (s.finish).slots.length = s.slots.length := by
  unfold State.finish
  simp

@[simp] theorem finishLinks_slotCount : (s.finishLinks).slots.length = s.slots.length := by
  unfold State.finishLinks
  simp

@[simp] theorem recordAccepted_slotCount (i : Nat) (d : DataBody) : (s.recordAccepted i d).slots.length = s.slots.length := by
  unfold State.recordAccepted
  simp

@[simp] theorem keepBuffer_slotCount : (s.keepBuffer).slots.length = s.slots.length := by
  unfold State.keepBuffer
  simp

@[simp] theorem deliver_slotCount (i : Nat) (d : DataBody) : ((s.deliver i d).1).slots.length = s.slots.length := by
  unfold State.deliver
  (repeat' split) <;> simp

@[simp] theorem relay_slotCount (i : Nat) (d : DataBody) : ((s.relay i d).1).slots.length = s.slots.length := by
  unfold State.relay
  (repeat' split) <;> simp

@[simp] theorem takeData_slotCount (i : Nat) (b : List Byte) : ((s.takeData i b).1).slots.length = s.slots.length := by
  unfold State.takeData
  (repeat' split) <;> simp

@[simp] theorem askAck_slotCount (h : Header) (f : Bool) : (s.askAck h f).slots.length = s.slots.length := by
  unfold State.askAck
  (repeat' split) <;> simp

@[simp] theorem hear_slotCount (f : RxFrame) (a : Option Advert) : ((s.hear f a).1).slots.length = s.slots.length := by
  unfold State.hear
  (repeat' split) <;> simp

@[simp] theorem observe_slotCount (f : RxFrame) (a : Option Advert) (e : Option Nat) : ((s.observe f a e).1).slots.length = s.slots.length := by
  have h := hear_slotCount s f a
  unfold State.observe
  split
  · simp_all
  · dsimp only
    split <;> simp_all

@[simp] theorem replaceAdvert_slotCount (i : Nat) (a : Advert) : (s.replaceAdvert i a).slots.length = s.slots.length := by
  unfold State.replaceAdvert
  (repeat' split) <;> simp

@[simp] theorem countEchoed_slotCount (i : Nat) (l : Bool) : (s.countEchoed i l).slots.length = s.slots.length := by
  unfold State.countEchoed
  (repeat' split) <;> simp

@[simp] theorem openPeerWindow_slotCount (i : Nat) : (s.openPeerWindow i).slots.length = s.slots.length := by
  unfold State.openPeerWindow
  (repeat' split) <;> simp

@[simp] theorem takeBeacon_slotCount (i : Nat) (a : Advert) (e : List EchoEntry) : (s.takeBeacon i a e).slots.length = s.slots.length := by
  unfold State.takeBeacon
  simp

@[simp] theorem clearStreak_slotCount (o : Option Nat) : (s.clearStreak o).slots.length = s.slots.length := by
  unfold State.clearStreak
  (repeat' split) <;> simp

@[simp] theorem takeAck_slotCount (h : Header) (o : Option Nat) : (s.takeAck h o).slots.length = s.slots.length := by
  unfold State.takeAck
  (repeat' split) <;> simp

@[simp] theorem dataBody_slotCount (f : RxFrame) (o : Option Nat) (b : List Byte) : (s.dataBody f o b).slots.length = s.slots.length := by
  unfold State.dataBody
  split
  · split
    · rename_i i
      have h := takeData_slotCount s i b
      split
      · split <;> simp_all
      · rfl
    · rfl
  · simp

@[simp] theorem offerBody_slotCount (f : RxFrame) (o : Option Nat) (b : List Byte) : (s.offerBody f o b).slots.length = s.slots.length := by
  unfold State.offerBody
  (repeat' split) <;> simp

@[simp] theorem handBody_slotCount (f : RxFrame) (o : Option Nat) (b : List Byte) : (s.handBody f o b).slots.length = s.slots.length := by
  unfold State.handBody
  (repeat' split) <;> simp

@[simp] theorem keptFrameEnds_slotCount (f : RxFrame) (b : List Byte) : (s.keptFrameEnds f b).slots.length = s.slots.length := by
  unfold State.keptFrameEnds
  (repeat' split) <;> simp

@[simp] theorem acceptHeader_slotCount (h : Header) (r : Int) : (s.acceptHeader h r).slots.length = s.slots.length := by
  unfold State.acceptHeader
  simp

@[simp] theorem countDown_slotCount (n : Nat) : (s.countDown n).slots.length = s.slots.length := by
  unfold State.countDown
  (repeat' split) <;> simp

@[simp] theorem freeReflect_slotCount (id : Nat) : (s.freeReflect id).slots.length = s.slots.length := by
  unfold State.freeReflect
  (repeat' split) <;> simp

@[simp] theorem awaitAck_slotCount : (s.awaitAck).slots.length = s.slots.length := by
  unfold State.awaitAck
  simp

@[simp] theorem sent_slotCount (c : Chosen) : (s.sent c).slots.length = s.slots.length := by
  unfold State.sent
  (repeat' split) <;> simp

@[simp] theorem shadowBegins_slotCount (i : Nat) (r : Record) : (s.shadowBegins i r).slots.length = s.slots.length := by
  unfold State.shadowBegins
  simp

@[simp] theorem waitTest_slotCount (e : Entry) : (s.waitTest e).slots.length = s.slots.length := by
  unfold State.waitTest
  (repeat' split) <;> simp

@[simp] theorem beaconFallsDue_slotCount (d : Nat) : (s.beaconFallsDue d).slots.length = s.slots.length := by
  unfold State.beaconFallsDue
  simp

/-! ## The receiver's buffer -/

@[simp] theorem modRec_rxSound (i : Nat) (f : Record → Record) (hs : s.rxSound = true) : (s.modRec i f).rxSound = true := by
  unfold State.modRec
  (repeat' split) <;> exact hs

@[simp] theorem putReport_rxSound (a : Addr) (slot : Option Nat) (body : ReportBody) (hs : s.rxSound = true) : (s.putReport a slot body).rxSound = true := by
  unfold State.putReport
  (repeat' split) <;> exact hs

@[simp] theorem returnBuffer_rxSound (hs : s.rxSound = true) : (s.returnBuffer).rxSound = true := by
  unfold State.returnBuffer
  split
  · simp only [rxSound_mk, Receiver.sound]
    split <;> simp
  · exact hs

@[simp] theorem receiverTakes_rxSound (hs : s.rxSound = true) : (s.receiverTakes).rxSound = true := by
  unfold State.receiverTakes
  split
  · exact hs
  · split
    · simp only [rxSound_mk, Receiver.sound]
      split <;> simp
    · exact hs

@[simp] theorem reselect_rxSound (hs : s.rxSound = true) : (s.reselect).rxSound = true := by
  unfold State.reselect
  (repeat' split) <;> (first | exact hs | simp (maxDischargeDepth := 12) [hs])

@[simp] theorem recost_rxSound (i : Nat) (hs : s.rxSound = true) : (s.recost i).rxSound = true := by
  unfold State.recost
  (repeat' split) <;> (first | exact hs | simp (maxDischargeDepth := 12) [hs])

@[simp] theorem rerate_rxSound (i : Nat) (hs : s.rxSound = true) : (s.rerate i).rxSound = true := by
  unfold State.rerate
  (first | exact hs | simp (maxDischargeDepth := 12) [hs])

@[simp] theorem assessTrim_rxSound (i : Nat) (hs : s.rxSound = true) : (s.assessTrim i).rxSound = true := by
  unfold State.assessTrim
  (first | exact hs | simp (maxDischargeDepth := 12) [hs])

@[simp] theorem endTrim_rxSound (i : Nat) (o : TrimOutcome) (hs : s.rxSound = true) : (s.endTrim i o).rxSound = true := by
  unfold State.endTrim
  (repeat' split) <;> (first | exact hs | simp (maxDischargeDepth := 12) [hs])

@[simp] theorem takeEcho_rxSound (i e : Nat) (hs : s.rxSound = true) : (s.takeEcho i e).rxSound = true := by
  unfold State.takeEcho
  dsimp only
  (repeat' split) <;> (first | exact hs | simp (maxDischargeDepth := 12) [hs])

@[simp] theorem announceFade_rxSound (i : Nat) (was : Fade) (hs : s.rxSound = true) : (s.announceFade i was).rxSound = true := by
  unfold State.announceFade
  (repeat' split) <;> (first | exact hs | simp (maxDischargeDepth := 12) [hs])

@[simp] theorem fadeReport_rxSound (i : Nat) (r : Record) (k : FadeClass) (c : FadeCause) (d p : Nat) (hs : s.rxSound = true) : (s.fadeReport i r k c d p).rxSound = true := by
  unfold State.fadeReport
  (first | exact hs | simp (maxDischargeDepth := 12) [hs])

@[simp] theorem measure_rxSound (i m : Nat) (seed : Bool) (hs : s.rxSound = true) : (s.measure i m seed).rxSound = true := by
  unfold State.measure
  dsimp only
  (repeat' split) <;> (first | exact hs | simp (maxDischargeDepth := 12) [hs])

@[simp] theorem rebuildBaseline_rxSound (i : Nat) (c : FadeCause) (d : Nat) (hs : s.rxSound = true) : (s.rebuildBaseline i c d).rxSound = true := by
  unfold State.rebuildBaseline
  (repeat' split) <;> (first | exact hs | simp (maxDischargeDepth := 12) [hs])

@[simp] theorem endCheck_rxSound (c : CheckCause) (hs : s.rxSound = true) : (s.endCheck c).rxSound = true := by
  unfold State.endCheck
  (repeat' split) <;> (first | exact hs | simp (maxDischargeDepth := 12) [hs])

@[simp] theorem endCheckOn_rxSound (i : Nat) (hs : s.rxSound = true) : (s.endCheckOn i).rxSound = true := by
  unfold State.endCheckOn
  (repeat' split) <;> (first | exact hs | simp (maxDischargeDepth := 12) [hs])

@[simp] theorem withdrawReflect_rxSound (p : Addr) (hs : s.rxSound = true) : (s.withdrawReflect p).rxSound = true := by
  unfold State.withdrawReflect
  (repeat' split) <;> exact hs

@[simp] theorem removePathsVia_rxSound (i : Nat) (hs : s.rxSound = true) : (s.removePathsVia i).rxSound = true := by
  unfold State.removePathsVia
  exact hs

@[simp] theorem announceLoss_rxSound (i : Nat) (p : Addr) (hs : s.rxSound = true) : (s.announceLoss i p).rxSound = true := by
  unfold State.announceLoss
  (first | exact hs | simp (maxDischargeDepth := 12) [hs])

@[simp] theorem removeRecord_rxSound (i : Nat) (c : LinkCause) (hs : s.rxSound = true) : (s.removeRecord i c).rxSound = true := by
  unfold State.removeRecord
  (repeat' split) <;> (first | exact hs | simp (maxDischargeDepth := 12) [hs])

@[simp] theorem ageCheck_rxSound (i : Nat) (hs : s.rxSound = true) : (s.ageCheck i).rxSound = true := by
  unfold State.ageCheck
  (repeat' split) <;> (first | exact hs | simp (maxDischargeDepth := 12) [hs])

@[simp] theorem loseLink_rxSound (i : Nat) (c : LinkCause) (hs : s.rxSound = true) : (s.loseLink i c).rxSound = true := by
  unfold State.loseLink
  (repeat' split) <;> (first | exact hs | simp (maxDischargeDepth := 12) [hs])

@[simp] theorem noAckExhausted_rxSound (p : Addr) (hs : s.rxSound = true) : (s.noAckExhausted p).rxSound = true := by
  unfold State.noAckExhausted
  (repeat' split) <;> (first | exact hs | simp (maxDischargeDepth := 12) [hs])

@[simp] theorem dequeue_rxSound (id : Nat) (hs : s.rxSound = true) : (s.dequeue id).rxSound = true := by
  unfold State.dequeue
  exact hs

@[simp] theorem recordDrop_rxSound (e : Entry) (c : DropCause) (hs : s.rxSound = true) : (s.recordDrop e c).rxSound = true := by
  unfold State.recordDrop
  (repeat' split) <;> (first | exact hs | simp (maxDischargeDepth := 12) [hs])

@[simp] theorem dropEntry_rxSound (id : Nat) (c : DropCause) (hs : s.rxSound = true) : (s.dropEntry id c).rxSound = true := by
  unfold State.dropEntry
  (repeat' split) <;> (first | exact hs | simp (maxDischargeDepth := 12) [hs])

@[simp] theorem releaseEntry_rxSound (id : Nat) (hs : s.rxSound = true) : (s.releaseEntry id).rxSound = true := by
  unfold State.releaseEntry
  (repeat' split) <;> (first | exact hs | simp (maxDischargeDepth := 12) [hs])

@[simp] theorem modExch_rxSound (i : Nat) (f : Exchange → Exchange) (hs : s.rxSound = true) : (s.modExch i f).rxSound = true := by
  unfold State.modExch
  (first | exact hs | simp (maxDischargeDepth := 12) [hs])

@[simp] theorem readyPage_rxSound (i n : Nat) (hs : s.rxSound = true) : (s.readyPage i n).rxSound = true := by
  unfold State.readyPage
  (first | exact hs | simp (maxDischargeDepth := 12) [hs])

@[simp] theorem toHeard_rxSound (i : Nat) (c : LinkCause) (h : Nat) (hs : s.rxSound = true) : (s.toHeard i c h).rxSound = true := by
  unfold State.toHeard
  (repeat' split) <;> (first | exact hs | simp (maxDischargeDepth := 12) [hs])

@[simp] theorem requestUp_rxSound (i : Nat) (hs : s.rxSound = true) : (s.requestUp i).rxSound = true := by
  unfold State.requestUp
  (repeat' split) <;> (first | exact hs | simp (maxDischargeDepth := 12) [hs])

@[simp] theorem beginExchange_rxSound (i : Nat) (x : Exchange) (hs : s.rxSound = true) : (s.beginExchange i x).rxSound = true := by
  unfold State.beginExchange
  (first | exact hs | simp (maxDischargeDepth := 12) [hs])

@[simp] theorem openOn_rxSound (i : Nat) (hs : s.rxSound = true) : (s.openOn i).rxSound = true := by
  unfold State.openOn
  (first | exact hs | simp (maxDischargeDepth := 12) [hs])

@[simp] theorem assess_rxSound (i : Nat) (hs : s.rxSound = true) : (s.assess i).rxSound = true := by
  unfold State.assess
  (repeat' split) <;> (first | exact hs | simp (maxDischargeDepth := 12) [hs])

@[simp] theorem assessAll_rxSound (hs : s.rxSound = true) : (s.assessAll).rxSound = true := by
  unfold State.assessAll
  generalize List.range 24 = l
  induction l generalizing s with
  | nil => exact hs
  | cons i l ih => exact ih _ (assess_rxSound s i hs)

@[simp] theorem answer_rxSound (i : Nat) (n : Word16) (c : Nat) (f : Bool) (t : Nat) (hs : s.rxSound = true) : (s.answer i n c f t).rxSound = true := by
  unfold State.answer
  (repeat' split) <;> (first | exact hs | simp (maxDischargeDepth := 12) [hs])

@[simp] theorem refuse_rxSound (i : Nat) (n : Word16) (c : Nat) (f : Bool) (hs : s.rxSound = true) : (s.refuse i n c f).rxSound = true := by
  unfold State.refuse
  (first | exact hs | simp (maxDischargeDepth := 12) [hs])

@[simp] theorem answerOrRefuse_rxSound (i : Nat) (n : Word16) (c : Nat) (f : Bool) (t : Nat) (hs : s.rxSound = true) : (s.answerOrRefuse i n c f t).rxSound = true := by
  unfold State.answerOrRefuse
  (repeat' split) <;> (first | exact hs | simp (maxDischargeDepth := 12) [hs])

@[simp] theorem pagesApplied_rxSound (i : Nat) (x : Exchange) (hs : s.rxSound = true) : (s.pagesApplied i x).rxSound = true := by
  unfold State.pagesApplied
  (repeat' split) <;> (first | exact hs | simp (maxDischargeDepth := 12) [hs])

@[simp] theorem progress_rxSound (i : Nat) (x : Exchange) (hs : s.rxSound = true) : (s.progress i x).rxSound = true := by
  unfold State.progress
  (first | exact hs | simp (maxDischargeDepth := 12) [hs])

@[simp] theorem takePage_offeringTerm_rxSound (i : Nat) (x : Exchange) (n k v : Nat) (hs : s.rxSound = true) : ((State.takePage.offeringTerm i s x n k v).1).rxSound = true := by
  unfold State.takePage.offeringTerm
  (repeat' split) <;> (first | exact hs | simp (maxDischargeDepth := 12) [hs])

@[simp] theorem takePage_offeringOpen_rxSound (i : Nat) (x : Exchange) (r : Role) (f : Bool) (n : Word16) (c : Nat) (l : Bool) (t : Nat) (hs : s.rxSound = true) : ((State.takePage.offeringOpen i s x r f n c l t).1).rxSound = true := by
  unfold State.takePage.offeringOpen
  (repeat' split) <;> (first | exact hs | simp (maxDischargeDepth := 12) [hs])

@[simp] theorem takePage_rxSound (i : Nat) (p : OfferPage) (hs : s.rxSound = true) : ((s.takePage i p).1).rxSound = true := by
  unfold State.takePage
  (repeat' split) <;> (first | exact hs | simp (maxDischargeDepth := 12) [hs])

@[simp] theorem pageAcked_rxSound (i id : Nat) (hs : s.rxSound = true) : (s.pageAcked i id).rxSound = true := by
  unfold State.pageAcked
  (repeat' split) <;> (first | exact hs | simp (maxDischargeDepth := 12) [hs])

@[simp] theorem failExchange_rxSound (i : Nat) (hs : s.rxSound = true) : (s.failExchange i).rxSound = true := by
  unfold State.failExchange
  (repeat' split) <;> (first | exact hs | simp (maxDischargeDepth := 12) [hs])

@[simp] theorem pageExhausted_rxSound (i id : Nat) (hs : s.rxSound = true) : (s.pageExhausted i id).rxSound = true := by
  unfold State.pageExhausted
  (repeat' split) <;> (first | exact hs | simp (maxDischargeDepth := 12) [hs])

@[simp] theorem makeRoom_rxSound (hs : s.rxSound = true) : (s.makeRoom.1).rxSound = true := by
  unfold State.makeRoom
  (repeat' split) <;> (first | exact hs | simp (maxDischargeDepth := 12) [hs])

@[simp] theorem admitPeer_rxSound (p : Addr) (m : Nat) (a : Advert) (hs : s.rxSound = true) : ((s.admitPeer p m a).1).rxSound = true := by
  have h := makeRoom_rxSound s hs
  unfold State.admitPeer
  split <;> simp_all

@[simp] theorem refresh_rxSound (i : Nat) (hs : s.rxSound = true) : ((s.refresh i).1).rxSound = true := by
  unfold State.refresh
  (repeat' split) <;> (first | exact hs | simp (maxDischargeDepth := 12) [hs])

@[simp] theorem dutyReport_rxSound (a b : DutyMode) (w : Bool) (hs : s.rxSound = true) : (s.dutyReport a b w).rxSound = true := by
  unfold State.dutyReport
  (first | exact hs | simp (maxDischargeDepth := 12) [hs])

@[simp] theorem activity_rxSound (hs : s.rxSound = true) : (s.activity).rxSound = true := by
  unfold State.activity
  (repeat' split) <;> (first | exact hs | simp (maxDischargeDepth := 12) [hs])

@[simp] theorem beaconEnded_rxSound (hs : s.rxSound = true) : (s.beaconEnded).rxSound = true := by
  unfold State.beaconEnded
  (repeat' split) <;> exact hs

@[simp] theorem readyProbe_rxSound (hs : s.rxSound = true) : (s.readyProbe).rxSound = true := by
  unfold State.readyProbe
  (repeat' split) <;> exact hs

@[simp] theorem nextProbe_rxSound (hs : s.rxSound = true) : (s.nextProbe).rxSound = true := by
  unfold State.nextProbe
  (repeat' split) <;> (first | exact hs | simp (maxDischargeDepth := 12) [hs])

@[simp] theorem probeSettled_rxSound (b : Bool) (hs : s.rxSound = true) : (s.probeSettled b).rxSound = true := by
  unfold State.probeSettled
  dsimp only
  (repeat' split) <;> (first | exact hs | simp (maxDischargeDepth := 12) [hs])

@[simp] theorem takeReflect_rxSound (a : Addr) (b : List Byte) (hs : s.rxSound = true) : (s.takeReflect a b).rxSound = true := by
  unfold State.takeReflect
  (repeat' split) <;> (first | exact hs | simp (maxDischargeDepth := 12) [hs])

@[simp] theorem takeProbe_rxSound (i : Nat) (a : Addr) (b : List Byte) (hs : s.rxSound = true) : (s.takeProbe i a b).rxSound = true := by
  unfold State.takeProbe
  (repeat' split) <;> exact hs

@[simp] theorem probeSent_rxSound (id : Nat) (hs : s.rxSound = true) : (s.probeSent id).rxSound = true := by
  unfold State.probeSent
  dsimp only
  (repeat' split) <;> (first | exact hs | simp (maxDischargeDepth := 12) [hs])

@[simp] theorem countAttempt_rxSound (c : Chosen) (hs : s.rxSound = true) : (s.countAttempt c).rxSound = true := by
  unfold State.countAttempt
  (repeat' split) <;> (first | exact hs | simp (maxDischargeDepth := 12) [hs])

@[simp] theorem beginSending_rxSound (c : Chosen) (l : Launch) (hs : s.rxSound = true) : (s.beginSending c l).rxSound = true := by
  unfold State.beginSending
  (first | exact hs | simp (maxDischargeDepth := 12) [hs])

@[simp] theorem backoffEnds_rxSound (hs : s.rxSound = true) : (s.backoffEnds).rxSound = true := by
  unfold State.backoffEnds
  (repeat' split) <;> (first | exact hs | simp (maxDischargeDepth := 12) [hs])

@[simp] theorem enterDefer_rxSound (c : Chosen) (hs : s.rxSound = true) : (s.enterDefer c).rxSound = true := by
  unfold State.enterDefer
  exact hs

@[simp] theorem scanQueue_rxSound (l : List Entry) (hs : s.rxSound = true) : ((scanQueue l s).1).rxSound = true := by
  induction l generalizing s with
  | nil => exact hs
  | cons e l ih =>
    unfold scanQueue
    split
    · exact hs
    · exact ih _ (dropEntry_rxSound s _ _ hs)
    · refine ih _ ?_
      split
      · exact dropEntry_rxSound s _ _ hs
      · exact hs

@[simp] theorem choose_rxSound (hs : s.rxSound = true) : (s.choose).rxSound = true := by
  have h := scanQueue_rxSound s s.fwd hs
  unfold State.choose
  split
  · simp [hs]
  · split
    · simp [hs]
    · split <;> simp_all

@[simp] theorem returnFrame_rxSound (o : AttemptOutcome) (hs : s.rxSound = true) : (s.returnFrame o).rxSound = true := by
  unfold State.returnFrame
  (repeat' split) <;> (first | exact hs | simp (maxDischargeDepth := 12) [hs])

@[simp] theorem settleAttempt_rxSound (o : AttemptOutcome) (hs : s.rxSound = true) : (s.settleAttempt o).rxSound = true := by
  unfold State.settleAttempt
  (first | exact hs | simp (maxDischargeDepth := 12) [hs])

@[simp] theorem syncReceiver_rxSound (hs : s.rxSound = true) : (s.syncReceiver).rxSound = true := by
  unfold State.syncReceiver
  split
  · split
    · exact receiverTakes_rxSound _ hs
    · exact hs
  · split <;> exact hs
  · exact hs

@[simp] theorem contend_rxSound (hs : s.rxSound = true) : (s.contend).rxSound = true := by
  unfold State.contend
  (repeat' split) <;> exact hs

@[simp] theorem chooseIfWork_rxSound (hs : s.rxSound = true) : (s.chooseIfWork).rxSound = true := by
  unfold State.chooseIfWork
  (repeat' split) <;> (first | exact hs | simp (maxDischargeDepth := 12) [hs])

@[simp] theorem finish_rxSound (hs : s.rxSound = true) : (s.finish).rxSound = true := by
  unfold State.finish
  (first | exact hs | simp (maxDischargeDepth := 12) [hs])

@[simp] theorem finishLinks_rxSound (hs : s.rxSound = true) : (s.finishLinks).rxSound = true := by
  unfold State.finishLinks
  exact finish_rxSound _ (assessAll_rxSound s hs)

@[simp] theorem recordAccepted_rxSound (i : Nat) (d : DataBody) (hs : s.rxSound = true) : (s.recordAccepted i d).rxSound = true := by
  unfold State.recordAccepted
  exact hs

@[simp] theorem askAck_rxSound (h : Header) (f : Bool) (hs : s.rxSound = true) : (s.askAck h f).rxSound = true := by
  unfold State.askAck
  (repeat' split) <;> exact hs

@[simp] theorem hear_rxSound (f : RxFrame) (a : Option Advert) (hs : s.rxSound = true) : ((s.hear f a).1).rxSound = true := by
  unfold State.hear
  (repeat' split) <;> (first | exact hs | simp (maxDischargeDepth := 12) [hs])

@[simp] theorem observe_rxSound (f : RxFrame) (a : Option Advert) (e : Option Nat) (hs : s.rxSound = true) : ((s.observe f a e).1).rxSound = true := by
  have h := hear_rxSound s f a hs
  unfold State.observe
  split
  · simp_all
  · dsimp only
    split <;> simp_all

@[simp] theorem replaceAdvert_rxSound (i : Nat) (a : Advert) (hs : s.rxSound = true) : (s.replaceAdvert i a).rxSound = true := by
  unfold State.replaceAdvert
  (repeat' split) <;> (first | exact hs | simp (maxDischargeDepth := 12) [hs])

@[simp] theorem countEchoed_rxSound (i : Nat) (l : Bool) (hs : s.rxSound = true) : (s.countEchoed i l).rxSound = true := by
  unfold State.countEchoed
  (repeat' split) <;> (first | exact hs | simp (maxDischargeDepth := 12) [hs])

@[simp] theorem openPeerWindow_rxSound (i : Nat) (hs : s.rxSound = true) : (s.openPeerWindow i).rxSound = true := by
  unfold State.openPeerWindow
  (repeat' split) <;> exact hs

@[simp] theorem takeBeacon_rxSound (i : Nat) (a : Advert) (e : List EchoEntry) (hs : s.rxSound = true) : (s.takeBeacon i a e).rxSound = true := by
  unfold State.takeBeacon
  simp [hs]

@[simp] theorem clearStreak_rxSound (o : Option Nat) (hs : s.rxSound = true) : (s.clearStreak o).rxSound = true := by
  unfold State.clearStreak
  (repeat' split) <;> (first | exact hs | simp (maxDischargeDepth := 12) [hs])

@[simp] theorem takeAck_rxSound (h : Header) (o : Option Nat) (hs : s.rxSound = true) : (s.takeAck h o).rxSound = true := by
  unfold State.takeAck
  (repeat' split) <;> (first | exact hs | simp (maxDischargeDepth := 12) [hs])

@[simp] theorem offerBody_rxSound (f : RxFrame) (o : Option Nat) (b : List Byte) (hs : s.rxSound = true) : (s.offerBody f o b).rxSound = true := by
  unfold State.offerBody
  (repeat' split) <;> (first | exact hs | simp (maxDischargeDepth := 12) [hs])

@[simp] theorem acceptHeader_rxSound (h : Header) (r : Int) (hs : s.rxSound = true) : (s.acceptHeader h r).rxSound = true := by
  simp only [State.acceptHeader, rxSound_mk, Receiver.sound]
  cases s.rx.holds <;> simp

@[simp] theorem countDown_rxSound (n : Nat) (hs : s.rxSound = true) : (s.countDown n).rxSound = true := by
  unfold State.countDown
  (repeat' split) <;> (first | exact hs | simp (maxDischargeDepth := 12) [hs])

@[simp] theorem freeReflect_rxSound (id : Nat) (hs : s.rxSound = true) : (s.freeReflect id).rxSound = true := by
  unfold State.freeReflect
  (repeat' split) <;> exact hs

@[simp] theorem awaitAck_rxSound (hs : s.rxSound = true) : (s.awaitAck).rxSound = true := by
  unfold State.awaitAck
  exact hs

@[simp] theorem sent_rxSound (c : Chosen) (hs : s.rxSound = true) : (s.sent c).rxSound = true := by
  unfold State.sent
  (repeat' split) <;> (first | exact hs | simp (maxDischargeDepth := 12) [hs])

@[simp] theorem shadowBegins_rxSound (i : Nat) (r : Record) (hs : s.rxSound = true) : (s.shadowBegins i r).rxSound = true := by
  unfold State.shadowBegins
  (first | exact hs | simp (maxDischargeDepth := 12) [hs])

@[simp] theorem waitTest_rxSound (e : Entry) (hs : s.rxSound = true) : (s.waitTest e).rxSound = true := by
  unfold State.waitTest
  (repeat' split) <;> (first | exact hs | simp (maxDischargeDepth := 12) [hs])

@[simp] theorem beaconFallsDue_rxSound (d : Nat) (hs : s.rxSound = true) : (s.beaconFallsDue d).rxSound = true := by
  unfold State.beaconFallsDue
  exact hs

/-! ## The frame under way -/

@[simp] theorem noteWork_frame : s.noteWork.rx.frame = s.rx.frame := rfl

@[simp] theorem senderIdle_frame : s.senderIdle.rx.frame = s.rx.frame := rfl

@[simp] theorem setAttention_frame : s.setAttention.rx.frame = s.rx.frame := rfl

@[simp] theorem drawBelow_frame (n : Nat) : (s.drawBelow n).2.rx.frame = s.rx.frame := rfl

@[simp] theorem modRec_frame (i : Nat) (f : Record → Record) : (s.modRec i f).rx.frame = s.rx.frame := by
  unfold State.modRec
  (repeat' split) <;> simp

@[simp] theorem putReport_frame (a : Addr) (slot : Option Nat) (body : ReportBody) : (s.putReport a slot body).rx.frame = s.rx.frame := by
  unfold State.putReport
  (repeat' split) <;> simp

@[simp] theorem returnBuffer_frame : (s.returnBuffer).rx.frame = s.rx.frame := by
  unfold State.returnBuffer
  (repeat' split) <;> simp

@[simp] theorem receiverTakes_frame : (s.receiverTakes).rx.frame = s.rx.frame := by
  unfold State.receiverTakes
  (repeat' split) <;> simp

@[simp] theorem reselect_frame : (s.reselect).rx.frame = s.rx.frame := by
  unfold State.reselect
  (repeat' split) <;> simp

@[simp] theorem recost_frame (i : Nat) : (s.recost i).rx.frame = s.rx.frame := by
  unfold State.recost
  (repeat' split) <;> simp

@[simp] theorem rerate_frame (i : Nat) : (s.rerate i).rx.frame = s.rx.frame := by
  unfold State.rerate
  simp

@[simp] theorem assessTrim_frame (i : Nat) : (s.assessTrim i).rx.frame = s.rx.frame := by
  unfold State.assessTrim
  simp

@[simp] theorem endTrim_frame (i : Nat) (o : TrimOutcome) : (s.endTrim i o).rx.frame = s.rx.frame := by
  unfold State.endTrim
  (repeat' split) <;> simp

@[simp] theorem takeEcho_frame (i e : Nat) : (s.takeEcho i e).rx.frame = s.rx.frame := by
  unfold State.takeEcho
  dsimp only
  (repeat' split) <;> simp

@[simp] theorem announceFade_frame (i : Nat) (was : Fade) : (s.announceFade i was).rx.frame = s.rx.frame := by
  unfold State.announceFade
  (repeat' split) <;> simp

@[simp] theorem fadeReport_frame (i : Nat) (r : Record) (k : FadeClass) (c : FadeCause) (d p : Nat) : (s.fadeReport i r k c d p).rx.frame = s.rx.frame := by
  unfold State.fadeReport
  simp

@[simp] theorem measure_frame (i m : Nat) (seed : Bool) : (s.measure i m seed).rx.frame = s.rx.frame := by
  unfold State.measure
  dsimp only
  (repeat' split) <;> simp

@[simp] theorem rebuildBaseline_frame (i : Nat) (c : FadeCause) (d : Nat) : (s.rebuildBaseline i c d).rx.frame = s.rx.frame := by
  unfold State.rebuildBaseline
  (repeat' split) <;> simp

@[simp] theorem endCheck_frame (c : CheckCause) : (s.endCheck c).rx.frame = s.rx.frame := by
  unfold State.endCheck
  (repeat' split) <;> simp

@[simp] theorem endCheckOn_frame (i : Nat) : (s.endCheckOn i).rx.frame = s.rx.frame := by
  unfold State.endCheckOn
  (repeat' split) <;> simp

@[simp] theorem withdrawReflect_frame (p : Addr) : (s.withdrawReflect p).rx.frame = s.rx.frame := by
  unfold State.withdrawReflect
  (repeat' split) <;> simp

@[simp] theorem removePathsVia_frame (i : Nat) : (s.removePathsVia i).rx.frame = s.rx.frame := by
  unfold State.removePathsVia
  simp

@[simp] theorem announceLoss_frame (i : Nat) (p : Addr) : (s.announceLoss i p).rx.frame = s.rx.frame := by
  unfold State.announceLoss
  simp

@[simp] theorem removeRecord_frame (i : Nat) (c : LinkCause) : (s.removeRecord i c).rx.frame = s.rx.frame := by
  unfold State.removeRecord
  (repeat' split) <;> simp

@[simp] theorem ageCheck_frame (i : Nat) : (s.ageCheck i).rx.frame = s.rx.frame := by
  unfold State.ageCheck
  (repeat' split) <;> simp

@[simp] theorem loseLink_frame (i : Nat) (c : LinkCause) : (s.loseLink i c).rx.frame = s.rx.frame := by
  unfold State.loseLink
  (repeat' split) <;> simp

@[simp] theorem noAckExhausted_frame (p : Addr) : (s.noAckExhausted p).rx.frame = s.rx.frame := by
  unfold State.noAckExhausted
  (repeat' split) <;> simp

@[simp] theorem dequeue_frame (id : Nat) : (s.dequeue id).rx.frame = s.rx.frame := by
  unfold State.dequeue
  simp

@[simp] theorem recordDrop_frame (e : Entry) (c : DropCause) : (s.recordDrop e c).rx.frame = s.rx.frame := by
  unfold State.recordDrop
  (repeat' split) <;> simp

@[simp] theorem dropEntry_frame (id : Nat) (c : DropCause) : (s.dropEntry id c).rx.frame = s.rx.frame := by
  unfold State.dropEntry
  (repeat' split) <;> simp

@[simp] theorem releaseEntry_frame (id : Nat) : (s.releaseEntry id).rx.frame = s.rx.frame := by
  unfold State.releaseEntry
  (repeat' split) <;> simp

@[simp] theorem modExch_frame (i : Nat) (f : Exchange → Exchange) : (s.modExch i f).rx.frame = s.rx.frame := by
  unfold State.modExch
  simp

@[simp] theorem readyPage_frame (i n : Nat) : (s.readyPage i n).rx.frame = s.rx.frame := by
  unfold State.readyPage
  simp

@[simp] theorem toHeard_frame (i : Nat) (c : LinkCause) (h : Nat) : (s.toHeard i c h).rx.frame = s.rx.frame := by
  unfold State.toHeard
  (repeat' split) <;> simp

@[simp] theorem requestUp_frame (i : Nat) : (s.requestUp i).rx.frame = s.rx.frame := by
  unfold State.requestUp
  (repeat' split) <;> simp

@[simp] theorem beginExchange_frame (i : Nat) (x : Exchange) : (s.beginExchange i x).rx.frame = s.rx.frame := by
  unfold State.beginExchange
  simp

@[simp] theorem openOn_frame (i : Nat) : (s.openOn i).rx.frame = s.rx.frame := by
  unfold State.openOn
  simp

@[simp] theorem assess_frame (i : Nat) : (s.assess i).rx.frame = s.rx.frame := by
  unfold State.assess
  (repeat' split) <;> simp

@[simp] theorem assessAll_frame : (s.assessAll).rx.frame = s.rx.frame := by
  unfold State.assessAll
  generalize List.range 24 = l
  induction l generalizing s with
  | nil => rfl
  | cons i l ih => simp [ih]

@[simp] theorem answer_frame (i : Nat) (n : Word16) (c : Nat) (f : Bool) (t : Nat) : (s.answer i n c f t).rx.frame = s.rx.frame := by
  unfold State.answer
  (repeat' split) <;> simp

@[simp] theorem refuse_frame (i : Nat) (n : Word16) (c : Nat) (f : Bool) : (s.refuse i n c f).rx.frame = s.rx.frame := by
  unfold State.refuse
  simp

@[simp] theorem answerOrRefuse_frame (i : Nat) (n : Word16) (c : Nat) (f : Bool) (t : Nat) : (s.answerOrRefuse i n c f t).rx.frame = s.rx.frame := by
  unfold State.answerOrRefuse
  (repeat' split) <;> simp

@[simp] theorem pagesApplied_frame (i : Nat) (x : Exchange) : (s.pagesApplied i x).rx.frame = s.rx.frame := by
  unfold State.pagesApplied
  (repeat' split) <;> simp

@[simp] theorem progress_frame (i : Nat) (x : Exchange) : (s.progress i x).rx.frame = s.rx.frame := by
  unfold State.progress
  simp

@[simp] theorem takePage_offeringTerm_frame (i : Nat) (x : Exchange) (n k v : Nat) : ((State.takePage.offeringTerm i s x n k v).1).rx.frame = s.rx.frame := by
  unfold State.takePage.offeringTerm
  (repeat' split) <;> simp

@[simp] theorem takePage_offeringOpen_frame (i : Nat) (x : Exchange) (r : Role) (f : Bool) (n : Word16) (c : Nat) (l : Bool) (t : Nat) : ((State.takePage.offeringOpen i s x r f n c l t).1).rx.frame = s.rx.frame := by
  unfold State.takePage.offeringOpen
  (repeat' split) <;> simp

@[simp] theorem takePage_frame (i : Nat) (p : OfferPage) : ((s.takePage i p).1).rx.frame = s.rx.frame := by
  unfold State.takePage
  (repeat' split) <;> simp

@[simp] theorem pageAcked_frame (i id : Nat) : (s.pageAcked i id).rx.frame = s.rx.frame := by
  unfold State.pageAcked
  (repeat' split) <;> simp

@[simp] theorem failExchange_frame (i : Nat) : (s.failExchange i).rx.frame = s.rx.frame := by
  unfold State.failExchange
  (repeat' split) <;> simp

@[simp] theorem pageExhausted_frame (i id : Nat) : (s.pageExhausted i id).rx.frame = s.rx.frame := by
  unfold State.pageExhausted
  (repeat' split) <;> simp

@[simp] theorem makeRoom_frame : (s.makeRoom.1).rx.frame = s.rx.frame := by
  unfold State.makeRoom
  (repeat' split) <;> simp

@[simp] theorem admitPeer_frame (p : Addr) (m : Nat) (a : Advert) : ((s.admitPeer p m a).1).rx.frame = s.rx.frame := by
  have h := makeRoom_frame s
  unfold State.admitPeer
  split <;> simp_all

@[simp] theorem refresh_frame (i : Nat) : ((s.refresh i).1).rx.frame = s.rx.frame := by
  unfold State.refresh
  (repeat' split) <;> simp

@[simp] theorem dutyReport_frame (a b : DutyMode) (w : Bool) : (s.dutyReport a b w).rx.frame = s.rx.frame := by
  unfold State.dutyReport
  simp

@[simp] theorem activity_frame : (s.activity).rx.frame = s.rx.frame := by
  unfold State.activity
  (repeat' split) <;> simp

@[simp] theorem beaconEnded_frame : (s.beaconEnded).rx.frame = s.rx.frame := by
  unfold State.beaconEnded
  (repeat' split) <;> simp

@[simp] theorem readyProbe_frame : (s.readyProbe).rx.frame = s.rx.frame := by
  unfold State.readyProbe
  (repeat' split) <;> simp

@[simp] theorem nextProbe_frame : (s.nextProbe).rx.frame = s.rx.frame := by
  unfold State.nextProbe
  (repeat' split) <;> simp

@[simp] theorem probeSettled_frame (b : Bool) : (s.probeSettled b).rx.frame = s.rx.frame := by
  unfold State.probeSettled
  dsimp only
  (repeat' split) <;> simp

@[simp] theorem takeReflect_frame (a : Addr) (b : List Byte) : (s.takeReflect a b).rx.frame = s.rx.frame := by
  unfold State.takeReflect
  (repeat' split) <;> simp

@[simp] theorem takeProbe_frame (i : Nat) (a : Addr) (b : List Byte) : (s.takeProbe i a b).rx.frame = s.rx.frame := by
  unfold State.takeProbe
  (repeat' split) <;> simp

@[simp] theorem probeSent_frame (id : Nat) : (s.probeSent id).rx.frame = s.rx.frame := by
  unfold State.probeSent
  dsimp only
  (repeat' split) <;> simp

@[simp] theorem countAttempt_frame (c : Chosen) : (s.countAttempt c).rx.frame = s.rx.frame := by
  unfold State.countAttempt
  (repeat' split) <;> simp

@[simp] theorem enterDefer_frame (c : Chosen) : (s.enterDefer c).rx.frame = s.rx.frame := by
  unfold State.enterDefer
  simp

@[simp] theorem scanQueue_frame (l : List Entry) : ((scanQueue l s).1).rx.frame = s.rx.frame := by
  induction l generalizing s with
  | nil => rfl
  | cons e l ih =>
    unfold scanQueue
    split
    · rfl
    · simp [ih]
    · rw [ih]; split <;> simp

@[simp] theorem choose_frame : (s.choose).rx.frame = s.rx.frame := by
  have h := scanQueue_frame s s.fwd
  unfold State.choose
  split
  · simp
  · split
    · simp
    · split <;> simp_all

@[simp] theorem returnFrame_frame (o : AttemptOutcome) : (s.returnFrame o).rx.frame = s.rx.frame := by
  unfold State.returnFrame
  (repeat' split) <;> simp

@[simp] theorem settleAttempt_frame (o : AttemptOutcome) : (s.settleAttempt o).rx.frame = s.rx.frame := by
  unfold State.settleAttempt
  simp

@[simp] theorem syncReceiver_frame : (s.syncReceiver).rx.frame = s.rx.frame := by
  unfold State.syncReceiver
  (repeat' split) <;> simp

@[simp] theorem contend_frame : (s.contend).rx.frame = s.rx.frame := by
  unfold State.contend
  (repeat' split) <;> simp

@[simp] theorem chooseIfWork_frame : (s.chooseIfWork).rx.frame = s.rx.frame := by
  unfold State.chooseIfWork
  (repeat' split) <;> simp

@[simp] theorem finish_frame : (s.finish).rx.frame = s.rx.frame := by
  unfold State.finish
  simp

@[simp] theorem finishLinks_frame : (s.finishLinks).rx.frame = s.rx.frame := by
  unfold State.finishLinks
  simp

@[simp] theorem recordAccepted_frame (i : Nat) (d : DataBody) : (s.recordAccepted i d).rx.frame = s.rx.frame := by
  unfold State.recordAccepted
  simp

@[simp] theorem keepBuffer_frame : (s.keepBuffer).rx.frame = s.rx.frame := by
  unfold State.keepBuffer
  simp

@[simp] theorem deliver_frame (i : Nat) (d : DataBody) : ((s.deliver i d).1).rx.frame = s.rx.frame := by
  unfold State.deliver
  (repeat' split) <;> simp

@[simp] theorem relay_frame (i : Nat) (d : DataBody) : ((s.relay i d).1).rx.frame = s.rx.frame := by
  unfold State.relay
  (repeat' split) <;> simp

@[simp] theorem takeData_frame (i : Nat) (b : List Byte) : ((s.takeData i b).1).rx.frame = s.rx.frame := by
  unfold State.takeData
  (repeat' split) <;> simp

@[simp] theorem askAck_frame (h : Header) (f : Bool) : (s.askAck h f).rx.frame = s.rx.frame := by
  unfold State.askAck
  (repeat' split) <;> simp

@[simp] theorem hear_frame (f : RxFrame) (a : Option Advert) : ((s.hear f a).1).rx.frame = s.rx.frame := by
  unfold State.hear
  (repeat' split) <;> simp

@[simp] theorem observe_frame (f : RxFrame) (a : Option Advert) (e : Option Nat) : ((s.observe f a e).1).rx.frame = s.rx.frame := by
  have h := hear_frame s f a
  unfold State.observe
  split
  · simp_all
  · dsimp only
    split <;> simp_all

@[simp] theorem replaceAdvert_frame (i : Nat) (a : Advert) : (s.replaceAdvert i a).rx.frame = s.rx.frame := by
  unfold State.replaceAdvert
  (repeat' split) <;> simp

@[simp] theorem countEchoed_frame (i : Nat) (l : Bool) : (s.countEchoed i l).rx.frame = s.rx.frame := by
  unfold State.countEchoed
  (repeat' split) <;> simp

@[simp] theorem openPeerWindow_frame (i : Nat) : (s.openPeerWindow i).rx.frame = s.rx.frame := by
  unfold State.openPeerWindow
  (repeat' split) <;> simp

@[simp] theorem takeBeacon_frame (i : Nat) (a : Advert) (e : List EchoEntry) : (s.takeBeacon i a e).rx.frame = s.rx.frame := by
  unfold State.takeBeacon
  simp

@[simp] theorem clearStreak_frame (o : Option Nat) : (s.clearStreak o).rx.frame = s.rx.frame := by
  unfold State.clearStreak
  (repeat' split) <;> simp

@[simp] theorem takeAck_frame (h : Header) (o : Option Nat) : (s.takeAck h o).rx.frame = s.rx.frame := by
  unfold State.takeAck
  (repeat' split) <;> simp

@[simp] theorem dataBody_frame (f : RxFrame) (o : Option Nat) (b : List Byte) : (s.dataBody f o b).rx.frame = s.rx.frame := by
  unfold State.dataBody
  split
  · split
    · rename_i i
      have h := takeData_frame s i b
      split
      · split <;> simp_all
      · rfl
    · rfl
  · simp

@[simp] theorem offerBody_frame (f : RxFrame) (o : Option Nat) (b : List Byte) : (s.offerBody f o b).rx.frame = s.rx.frame := by
  unfold State.offerBody
  (repeat' split) <;> simp

@[simp] theorem handBody_frame (f : RxFrame) (o : Option Nat) (b : List Byte) : (s.handBody f o b).rx.frame = s.rx.frame := by
  unfold State.handBody
  (repeat' split) <;> simp

@[simp] theorem keptFrameEnds_frame (f : RxFrame) (b : List Byte) : (s.keptFrameEnds f b).rx.frame = s.rx.frame := by
  unfold State.keptFrameEnds
  (repeat' split) <;> simp

@[simp] theorem freeReflect_frame (id : Nat) : (s.freeReflect id).rx.frame = s.rx.frame := by
  unfold State.freeReflect
  (repeat' split) <;> simp

@[simp] theorem awaitAck_frame : (s.awaitAck).rx.frame = s.rx.frame := by
  unfold State.awaitAck
  simp

@[simp] theorem sent_frame (c : Chosen) : (s.sent c).rx.frame = s.rx.frame := by
  unfold State.sent
  (repeat' split) <;> simp

@[simp] theorem shadowBegins_frame (i : Nat) (r : Record) : (s.shadowBegins i r).rx.frame = s.rx.frame := by
  unfold State.shadowBegins
  simp

@[simp] theorem waitTest_frame (e : Entry) : (s.waitTest e).rx.frame = s.rx.frame := by
  unfold State.waitTest
  (repeat' split) <;> simp

@[simp] theorem beaconFallsDue_frame (d : Nat) : (s.beaconFallsDue d).rx.frame = s.rx.frame := by
  unfold State.beaconFallsDue
  simp

end Sys2Proof.Machine
end

