-- ==== Sys2Proof/Laws/Finish.lean ====
section
/-! SUPPORT. What ends every command, said once: `finish` leads from a state to one related to it by `State.Ends`. -/

namespace Sys2Proof.Machine

/-- The blocks that what ends a command leaves alone, together. -/
def State.still (s : State) : Duty × Checker × (Option NextHop × Nat) × (List Delivery × List (Addr × Word16) ×
    List ReturnPath) × Sender :=
  (s.duty, s.check, s.route, s.relayed, s.tx)

variable (s : State)

theorem putReport_still (a : Addr) (slot : Option Nat) (body : ReportBody) :
    (s.putReport a slot body).still = s.still := by
  unfold State.putReport
  (repeat' split) <;> rfl

theorem putReport_slots (a : Addr) (slot : Option Nat) (body : ReportBody) :
    (s.putReport a slot body).slots = s.slots := by
  unfold State.putReport
  (repeat' split) <;> rfl

theorem returnBuffer_still : s.returnBuffer.still = s.still := by
  unfold State.returnBuffer
  split <;> rfl

theorem returnBuffer_slots : s.returnBuffer.slots = s.slots := by
  unfold State.returnBuffer
  split <;> rfl

theorem modRec_still (i : Nat) (f : Record → Record) : (s.modRec i f).still = s.still := by
  unfold State.modRec
  split <;> rfl

theorem rec?_eq_some {i : Nat} {r : Record} (h : s.rec? i = some r) : s.slots[i]? = some (some r) := by
  unfold State.rec? at h
  cases hi : s.slots[i]? with
  | none => simp [hi] at h
  | some o => simpa [hi] using h

/-- A change of a record that its view does not show leaves the view of the table alone. -/
theorem modRec_table (i : Nat) (f : Record → Record) (hf : ∀ r, (f r).uncounted = r.uncounted) :
    (s.modRec i f).table = s.table := by
  unfold State.modRec
  split
  · rename_i r hr
    have h := rec?_eq_some s hr
    simp only [State.table, setSlot_slots, List.map_set]
    apply List.ext_getElem?
    intro j
    by_cases hj : j = i
    · subst hj
      by_cases hl : j < s.slots.length <;> simp_all [List.getElem?_set]
    · simp [List.getElem?_set, Ne.symm hj]
  · rfl

theorem recordDrop_still (e : Entry) (c : DropCause) : (s.recordDrop e c).still = s.still := by
  unfold State.recordDrop
  split
  · exact putReport_still s _ _ _
  · exact modRec_still s _ _
  · rfl

theorem recordDrop_table (e : Entry) (c : DropCause) : (s.recordDrop e c).table = s.table := by
  unfold State.recordDrop
  split
  · simp [State.table, putReport_slots]
  · exact modRec_table s _ _ fun _ => rfl
  · rfl

theorem dropEntry_still (id : Nat) (c : DropCause) : (s.dropEntry id c).still = s.still := by
  unfold State.dropEntry
  split
  · rfl
  · rw [recordDrop_still, returnBuffer_still]
    rfl

theorem dropEntry_table (id : Nat) (c : DropCause) : (s.dropEntry id c).table = s.table := by
  unfold State.dropEntry
  split
  · rfl
  · rw [recordDrop_table]
    simp [State.table, returnBuffer_slots, State.dequeue]

theorem scanQueue_still (l : List Entry) : (scanQueue l s).1.still = s.still := by
  induction l generalizing s with
  | nil => rfl
  | cons e l ih =>
    unfold scanQueue
    split
    · rfl
    · rw [ih, dropEntry_still]
    · rw [ih]
      split
      · exact dropEntry_still s _ _
      · rfl

theorem scanQueue_table (l : List Entry) : (scanQueue l s).1.table = s.table := by
  induction l generalizing s with
  | nil => rfl
  | cons e l ih =>
    unfold scanQueue
    split
    · rfl
    · rw [ih, dropEntry_table]
    · rw [ih]
      split
      · exact dropEntry_table s _ _
      · rfl

/-- What an examination of the forward queue leaves alone: all but the queue, the pool, the reports and the row
counters. -/
structure State.Scanned (a b : State) : Prop where
  host    : b.host = a.host
  still   : b.still = a.still
  table   : b.table = a.table
  buffers : b.buffers = a.buffers
  state   : b.rx.state = a.rx.state
  frame   : b.rx.frame = a.rx.frame
  synced  : b.rx.heldAtSync = a.rx.heldAtSync

theorem dropEntry_rxState (id : Nat) (c : DropCause) :
    (s.dropEntry id c).rx.state = s.rx.state ∧ (s.dropEntry id c).rx.heldAtSync = s.rx.heldAtSync := by
  unfold State.dropEntry State.recordDrop State.returnBuffer State.putReport State.modRec
  (repeat' split) <;> exact ⟨rfl, rfl⟩

theorem scanQueue_rxState (l : List Entry) :
    (scanQueue l s).1.rx.state = s.rx.state ∧ (scanQueue l s).1.rx.heldAtSync = s.rx.heldAtSync := by
  induction l generalizing s with
  | nil => exact ⟨rfl, rfl⟩
  | cons e l ih =>
    unfold scanQueue
    split
    · exact ⟨rfl, rfl⟩
    · rw [(ih _).1, (ih _).2]
      exact dropEntry_rxState s _ _
    · rw [(ih _).1, (ih _).2]
      split
      · exact dropEntry_rxState s _ _
      · exact ⟨rfl, rfl⟩

theorem scanQueue_scanned (l : List Entry) : s.Scanned (scanQueue l s).1 :=
  ⟨scanQueue_host s l, scanQueue_still s l, scanQueue_table s l, scanQueue_buffers s l,
    (scanQueue_rxState s l).1, scanQueue_frame s l, (scanQueue_rxState s l).2⟩

/-- The choice: the queue scanned, and a frame entered into DEFER or none. -/
theorem choose_cases :
    ∃ s1, s.Scanned s1 ∧ (s.choose = s1 ∨ ∃ c, s.choose = s1.enterDefer c) := by
  unfold State.choose
  have hs : s.Scanned s := ⟨rfl, rfl, rfl, rfl, rfl, rfl, rfl⟩
  have hq := scanQueue_scanned s s.fwd
  split
  · exact ⟨s, hs, .inr ⟨_, rfl⟩⟩
  · split
    · exact ⟨s, hs, .inr ⟨_, rfl⟩⟩
    · split
      · rename_i h; rw [h] at hq; exact ⟨_, hq, .inr ⟨_, rfl⟩⟩
      · rename_i h; rw [h] at hq; exact ⟨_, hq, .inl rfl⟩

/-! ## The receiver's listening and contention -/

/-- The receiver after it follows the request to listen (R3, R13): state, frame, buffer; nothing else moves. -/
theorem syncReceiver_spec :
    ∃ rx free, s.syncReceiver = { s with rx := rx, free := free } ∧ rx.frame = s.rx.frame ∧
      (rx.state = match s.rx.state with
        | .off => if s.askedToListen && !s.transmitting then .hunt else .off
        | .hunt => if s.askedToListen then .hunt else .off
        | other => other) ∧
      rx.heldAtSync = s.rx.heldAtSync ∧
      (free = s.free ∧ rx.holds = s.rx.holds ∧ rx.request = s.rx.request ∧
          (s.rx.state = .off → rx.state = .hunt → rx.holds = true) ∨
        s.rx.state = .off ∧ rx.state = .hunt ∧ s.rx.holds = false ∧
          (0 < s.free ∧ free + 1 = s.free ∧ rx.holds = true ∧ rx.request = false ∨
            s.free = 0 ∧ free = 0 ∧ rx.holds = false ∧ rx.request = true)) := by
  unfold State.syncReceiver
  split
  · rename_i h
    split
    · rename_i hc
      unfold State.receiverTakes
      split
      · rename_i hh
        exact ⟨_, _, rfl, rfl, by simp [h, hc], rfl, .inl ⟨rfl, rfl, rfl, fun _ _ => hh⟩⟩
      · rename_i hh
        have hh : s.rx.holds = false := by simpa using hh
        split
        · rename_i hf
          have hf : 0 < s.free := hf
          exact ⟨_, _, rfl, rfl, by simp [h, hc], rfl, .inr ⟨h, rfl, hh, .inl ⟨hf, by simp; omega, rfl, rfl⟩⟩⟩
        · rename_i hf
          have hf : s.free = 0 := by simpa using hf
          exact ⟨_, _, rfl, rfl, by simp [h, hc], rfl, .inr ⟨h, rfl, hh, .inr ⟨hf, hf, hh, rfl⟩⟩⟩
    · rename_i hc
      exact ⟨s.rx, s.free, rfl, rfl, by simp [hc, h], rfl, .inl ⟨rfl, rfl, rfl, fun _ h2 => by simp [h] at h2⟩⟩
  · rename_i h
    split
    · rename_i hc
      exact ⟨s.rx, s.free, rfl, rfl, by simp [hc, h], rfl, .inl ⟨rfl, rfl, rfl, fun h2 => by simp [h] at h2⟩⟩
    · rename_i hc
      exact ⟨_, _, rfl, rfl, by simp [h, hc], rfl, .inl ⟨rfl, rfl, rfl, fun h2 => by simp [h] at h2⟩⟩
  · rename_i h1 h2
    exact ⟨s.rx, s.free, rfl, rfl, by first | rfl | (split <;> simp_all), rfl,
      .inl ⟨rfl, rfl, rfl, fun h => (h1 h).elim⟩⟩

/-- Contention moves the sender alone (R18). -/
theorem contend_spec :
    ∃ tx, s.contend = { s with tx := tx } ∧ tx.state.contending = s.tx.state.contending ∧
      (tx.state = .sending ↔ s.tx.state = .sending) ∧ tx.ackAir = s.tx.ackAir ∧
      (s.tx.state = .defer → tx =
        { s.tx with guard := if s.sensedIdle then some (s.tx.guard.getD (s.now + guardGap)) else none }) ∧
      (s.tx.state = .backoff → tx = if s.sensedIdle then s.tx else
        { s.tx with state := .defer, guard := none, slotEnd := none }) ∧
      (s.tx.state = .idle ∨ s.tx.state = .sending ∨ s.tx.state = .awaitAck → tx = s.tx) := by
  unfold State.contend
  split
  · rename_i h
    split
    · rename_i hi
      split
      · rename_i hg; refine ⟨_, rfl, ?_⟩; simp [h, hi, hg]
      · rename_i hg
        obtain ⟨g, hg⟩ := Option.ne_none_iff_exists'.mp hg
        have he : s.tx = { s.tx with guard := some (s.tx.guard.getD (s.now + guardGap)) } := by
          rw [hg, Option.getD_some, ← hg]
        refine ⟨s.tx, rfl, rfl, Iff.rfl, rfl, fun _ => by simpa only [hi, if_true] using he, ?_, ?_⟩ <;> simp [h]
    · rename_i hi; refine ⟨_, rfl, ?_⟩; simp [h, hi]
  · rename_i h
    split
    · rename_i hi; refine ⟨s.tx, rfl, ?_⟩; simp [h, hi]
    · rename_i hi; refine ⟨_, rfl, ?_⟩; simp [h, hi, TxState.contending]
  · rename_i h1 h2
    exact ⟨s.tx, rfl, rfl, Iff.rfl, rfl, fun h => (h1 h).elim, fun h => (h2 h).elim, fun _ => rfl⟩

/-! ## What ends a command -/

theorem chooseIfWork_quiet (h : s.chooses = false) : s.chooseIfWork = { s with workAvailable := false } := by
  unfold State.chooses at h
  simp [State.chooseIfWork, h]

/-- The choice made, or none possible (R14, R18). -/
theorem chooseIfWork_cases (h : s.chooses = true) :
    ∃ s1, s.Scanned s1 ∧ (s.chooseIfWork = { s1 with workAvailable := false } ∨
      ∃ c, s.chooseIfWork = { s1.enterDefer c with workAvailable := false }) := by
  obtain ⟨s1, h1, h2⟩ := choose_cases s
  unfold State.chooses at h
  refine ⟨s1, h1, ?_⟩
  simp only [State.chooseIfWork, h, if_true]
  rcases h2 with h2 | ⟨c, h2⟩
  · exact .inl (by rw [h2])
  · exact .inr ⟨c, by rw [h2]⟩

/-- The blocks before the receiver and the sender follow: all of `Ends` that no later part of the end changes. -/
structure State.Chosen (a b : State) : Prop where
  host    : b.host = a.host
  duty    : b.duty = a.duty
  check   : b.check = a.check
  route   : b.route = a.route
  relayed : b.relayed = a.relayed
  table   : b.table = a.table
  buffers : b.buffers = a.buffers
  settled : b.workAvailable = false
  quiet   : a.chooses = false → b = { a with workAvailable := false }
  frame   : b.rx.frame = a.rx.frame
  state   : b.rx.state = a.rx.state
  synced  : b.rx.heldAtSync = a.rx.heldAtSync
  tx      : b.tx = a.tx ∨ a.chooses = true ∧ ∃ c n, (0 < a.tx.cw → n < a.tx.cw) ∧
    b.tx = { a.tx with state := .defer, chosen := some c, count := some n, guard := none, slotEnd := none }
  made    : a.chooses = true → b = { a.choose with workAvailable := false }

theorem still_eq {a b : State} (h : b.still = a.still) :
    b.duty = a.duty ∧ b.check = a.check ∧ b.route = a.route ∧ b.relayed = a.relayed ∧ b.tx = a.tx := by
  simpa [State.still] using h

theorem chooseIfWork_made (h : s.chooses = true) : s.chooseIfWork = { s.choose with workAvailable := false } := by
  unfold State.chooses at h
  simp [State.chooseIfWork, h]

theorem chooseIfWork_chosen : s.Chosen s.chooseIfWork := by
  cases h : s.chooses with
  | false =>
    rw [chooseIfWork_quiet s h]
    exact ⟨rfl, rfl, rfl, rfl, rfl, rfl, rfl, rfl, fun _ => rfl, rfl, rfl, rfl, .inl rfl, fun hf => (by simp [h] at hf)⟩
  | true =>
    obtain ⟨s1, hs, hc⟩ := chooseIfWork_cases s h
    obtain ⟨hd, hk, hr, hl, ht⟩ := still_eq hs.still
    rcases hc with hc | ⟨c, hc⟩
    · rw [hc]
      exact ⟨hs.host, hd, hk, hr, hl, hs.table, hs.buffers, rfl, fun hf => (by simp [h] at hf), hs.frame, hs.state,
        hs.synced, .inl ht, fun _ => hc ▸ chooseIfWork_made s h⟩
    · rw [hc]
      refine ⟨hs.host, hd, hk, hr, hl, hs.table, hs.buffers, rfl, fun hf => (by simp [h] at hf), hs.frame, hs.state,
        hs.synced, .inr ⟨h, c, Config.draw s1.draws % s1.tx.cw, fun hz => ?_, ?_⟩, fun _ => hc ▸ chooseIfWork_made s h⟩
      · rw [ht]; exact Nat.mod_lt _ hz
      · simp [State.enterDefer, State.drawBelow, ht]

/-- What ends a command does all that `State.Ends` says. -/
theorem finish_ends : s.Ends s.finish := by
  have hb := finish_buffers s
  have hc := chooseIfWork_chosen s
  unfold State.finish at hb ⊢
  generalize s.chooseIfWork = c at hb hc ⊢
  obtain ⟨rx, free, hy, hyf, hys, hyn, hyt⟩ := syncReceiver_spec c
  obtain ⟨tx, hd, hdc, hds, hda, hdd, hdb, hdi⟩ := contend_spec c.syncReceiver
  rw [hd, hy] at hb
  rw [hy] at hdc hds hda hdd hdb hdi
  rw [hd, hy]
  obtain ⟨B, hB⟩ : ∃ B, B = State.setAttention { c with rx := rx, free := free, tx := tx } := ⟨_, rfl⟩
  have hBtx : B.tx = tx := by rw [hB]; rfl
  have hidle : ({ c with rx := rx, free := free } : State).sensedIdle = B.sensedIdle := by rw [hB]; rfl
  have hask : c.askedToListen = B.askedToListen := by
    have : B.askedToListen = (c.operating && (c.dutyListens || tx.state.contending)) := by rw [hB]; rfl
    rw [this, hdc]; rfl
  have htr : c.transmitting = B.transmitting := by
    have : B.transmitting = (decide (tx.state = .sending) || tx.ackAir.isSome) := by rw [hB]; rfl
    rw [this, hda]; simp only [hds]; rfl
  rw [hidle] at hdd hdb
  rw [hask, htr, hc.state] at hys
  have hnow : c.now = s.now := congrArg HostPart.now hc.host
  rw [← hB] at hb ⊢
  refine ⟨by rw [hB]; exact hc.host, by rw [hB]; exact hc.duty, by rw [hB]; exact hc.check, by rw [hB]; exact hc.route,
    by rw [hB]; exact hc.relayed, by rw [hB]; exact hc.table, hb, by rw [hB]; exact hc.settled,
    by rw [hB]; rfl, fun hq => ?_, by rw [hB]; exact hyf.trans hc.frame, by rw [hB]; exact hyn.trans hc.synced, ?_, ?_,
    fun hi => ?_, fun hi => ?_, fun hi => ?_, fun hi => ?_, fun hq => ?_⟩
  · have := hc.quiet hq; subst this; rw [hB]; exact ⟨rfl, rfl, rfl, rfl, rfl, rfl⟩
  · have hr : B.rx = rx := by rw [hB]; rfl
    rw [hr]; exact hys
  · have hr : B.rx = rx := by rw [hB]; rfl
    have hf : B.free = free := by rw [hB]; rfl
    have ha : c.free = s.afterChoice.free ∧ c.rx = s.afterChoice.rx := by
      unfold State.afterChoice
      cases hq : s.chooses with
      | true => rw [hc.made hq]; exact ⟨rfl, rfl⟩
      | false => rw [hc.quiet hq]; exact ⟨rfl, rfl⟩
    rw [hr, hf, ← ha.1, ← ha.2, ← hc.state]; exact hyt
  · rw [hBtx]
    rcases hc.tx with ht | ⟨hz, k, n, hn, ht⟩
    · exact .inl ((hdi (.inl (by rw [← hi, ← ht]))).trans ht)
    · refine .inr ⟨hz, ?_⟩
      have hd := hdd (by rw [ht])
      rw [ht, hnow] at hd
      have hd := hBtx.trans hd
      exact ⟨by rw [hd], by rw [hd]; rfl, ⟨n, by rw [hd], hn⟩, by rw [hd]; rfl, by rw [hd]⟩
  · rw [hBtx]
    rcases hc.tx with ht | ⟨hz, -⟩
    · have := hdd (by rw [← hi, ← ht]); rw [← hnow, ← ht]; exact this
    · simp [State.chooses, State.mayChoose, hi] at hz
  · rw [hBtx]
    rcases hc.tx with ht | ⟨hz, -⟩
    · have := hdb (by rw [← hi, ← ht]); rw [← ht]; exact this
    · simp [State.chooses, State.mayChoose, hi] at hz
  · rw [hBtx]
    rcases hc.tx with ht | ⟨hz, -⟩
    · rw [← ht] at hi ⊢; exact hdi (.inr hi)
    · rcases hi with hi | hi <;> simp [State.chooses, State.mayChoose, hi] at hz
  · have := hc.made hq; subst this
    refine ⟨by rw [hB]; rfl, by rw [hB]; rfl, by rw [hB]; rfl, by rw [hB]; rfl, by rw [hB]; rfl, by rw [hB]; rfl,
      fun h => hBtx.trans (hdi (.inl h)), fun h => hBtx.trans ((hdd h).trans ?_)⟩
    rcases hc.tx with ht | ⟨-, k, n, -, ht⟩
    · have hi : s.tx.state = .idle := by
        simp only [State.chooses, State.mayChoose, Bool.and_eq_true, decide_eq_true_eq] at hq; exact hq.1.1.1
      exact absurd ((congrArg Sender.state ht).symm.trans h |>.symm.trans hi |> fun h => h) (by simp)
    · have hg : s.choose.tx.guard = none := congrArg Sender.guard ht
      change ({ s.choose.tx with guard := if B.sensedIdle then some (s.choose.tx.guard.getD (s.choose.now + guardGap)) else none } : Sender) = _
      rw [hg, show s.choose.now = s.now from hnow]; rfl

end Sys2Proof.Machine
end

