-- ==== Sys2Proof/Laws/Command.lean ====
section
/-! SUPPORT. How a command runs: an event out of reset, a host command at its rise of select, and the record of the command
taken. -/

namespace Sys2Proof.Machine

/-- Out of reset an event has its effect. -/
theorem unlessReset_eq {s : State} (f : State → State) (h : s.inReset = false) : s.unlessReset f = .next (f s) := by
  simp [State.unlessReset, h]

/-- The rise of select that takes a command: its effect on the closed port's state, with its status recorded (R160). -/
theorem takeCommand_eq {s : State} {code : Byte} {p : Transaction} (h : s.closing code p)
    (effect : Transaction → State → Status × State) :
    s.unlessReset (State.takeCommand code effect) =
      .next { (effect p s.closePort).2 with latest := some (code, (effect p s.closePort).1) } := by
  obtain ⟨hr, hp, hc, hk⟩ := h
  simp [State.unlessReset, State.takeCommand, hr, hp, hc, hk]

/-- A command that leaves the closed port's state alone only records its status. -/
theorem takeCommand_status {s : State} {code : Byte} {p : Transaction} {st : Status} (h : s.closing code p)
    {effect : Transaction → State → Status × State} (he : effect p s.closePort = (st, s.closePort)) :
    s.unlessReset (State.takeCommand code effect) = .next (s.taken code st) := by
  rw [takeCommand_eq h, he]
  rfl

/-- A report does not read the latest command. -/
theorem putReport_latest (s : State) (l : Option (Byte × Status)) (a : Addr) (slot : Option Nat) (body : ReportBody) :
    State.putReport a slot body { s with latest := l } = { s.putReport a slot body with latest := l } := by
  simp only [State.putReport]
  cases overwrite a slot body s.serial s.reports with
  | some q => rfl
  | none =>
    dsimp only
    by_cases h : s.reports.length < 32
    · rw [if_pos h, if_pos h]
    · rw [if_neg h, if_neg h]

/-- A drop does not read the latest command. -/
theorem dropEntry_latest (s : State) (l : Option (Byte × Status)) (id : Nat) (c : DropCause) :
    State.dropEntry id c { s with latest := l } = { s.dropEntry id c with latest := l } := by
  unfold State.dropEntry
  rw [show State.entry? id { s with latest := l } = s.entry? id from rfl]
  cases s.entry? id with
  | none => rfl
  | some e =>
    have hb : State.returnBuffer (State.dequeue id { s with latest := l }) =
        { (s.dequeue id).returnBuffer with latest := l } := by
      unfold State.returnBuffer
      simp only [apply_ite (fun x : State => { x with latest := l })]
      rfl
    change State.recordDrop e c (State.returnBuffer (State.dequeue id { s with latest := l })) =
      { State.recordDrop e c (s.dequeue id).returnBuffer with latest := l }
    rw [hb]
    generalize (s.dequeue id).returnBuffer = u
    unfold State.recordDrop
    split
    · exact putReport_latest u l _ _ _
    · unfold State.modRec
      rename_i i _ _
      rw [show State.rec? { u with latest := l } i = u.rec? i from rfl]
      cases u.rec? i <;> rfl
    · rfl

/-- A choice does not read the latest command. -/
theorem choose_latest (s : State) (l : Option (Byte × Status)) :
    State.choose { s with latest := l } = { s.choose with latest := l } := by
  have hscan : ∀ (es : List Entry) (u : State),
      scanQueue es { u with latest := l } = ({ (scanQueue es u).1 with latest := l }, (scanQueue es u).2) := by
    intro es
    induction es with
    | nil => intro u; rfl
    | cons e es ih =>
      intro u
      unfold scanQueue
      rw [show State.examine { u with latest := l } e = u.examine e from rfl,
        show State.pastWait { u with latest := l } e = u.pastWait e from rfl]
      cases u.examine e with
      | send p => rfl
      | tooLong => dsimp only; rw [dropEntry_latest, ih]
      | waiting =>
        dsimp only
        split
        · rw [dropEntry_latest, ih]
        · rw [ih]
  unfold State.choose
  rw [show State.controlFrames { s with latest := l } = s.controlFrames from rfl]
  dsimp only
  split
  · rfl
  · cases oldestControl s.controlFrames with
    | some f => rfl
    | none =>
      dsimp only
      rw [hscan]
      rcases scanQueue s.fwd s with ⟨u, c⟩
      cases c <;> rfl

/-- Recording a command on both sides of what ends it. -/
theorem State.Ends.record {a b : State} (h : a.Ends b) (l : Option (Byte × Status)) :
    State.Ends { a with latest := l } { b with latest := l } := by
  have hh : ({ b with latest := l } : State).host = ({ a with latest := l } : State).host := by
    have := congrArg (fun x : HostPart => { x with latest := l }) h.host
    exact this
  refine ⟨hh, h.duty, h.check, h.route, h.relayed, h.table, h.buffers, h.settled, h.attn, h.quiet, h.frame, h.synced,
    h.listens, ?_, fun hi => ?_, h.defer, h.backoff, h.sending, fun hc => ?_⟩
  · have hc : State.afterChoice { a with latest := l } = { a.afterChoice with latest := l } := by
      unfold State.afterChoice
      rw [show State.chooses { a with latest := l } = a.chooses from rfl, choose_latest]
      split <;> rfl
    rw [hc]
    exact h.takes
  · rcases h.idle hi with h1 | ⟨h1, h2⟩
    · exact .inl h1
    · exact .inr ⟨h1, h2.state, h2.chosen, h2.count, h2.guard, h2.rest⟩
  · rw [choose_latest]
    exact h.choice hc

/-- A host command whose effect ends as every command does. -/
theorem takeCommand_ends {s : State} {code : Byte} {p : Transaction} {st : Status} {a : State} (h : s.closing code p)
    {effect : Transaction → State → Status × State} (he : effect p s.closePort = (st, a.finish)) :
    ∃ t, s.unlessReset (State.takeCommand code effect) = .next t ∧
      State.Ends { a with latest := some (code, st) } t := by
  refine ⟨_, takeCommand_eq h effect, ?_⟩
  rw [he]
  exact (finish_ends a).record _

/-- An event whose effect ends as every command does. -/
theorem unlessReset_ends {s a : State} {f : State → State} (h : s.inReset = false) (hf : f s = a.finish) :
    ∃ t, s.unlessReset f = .next t ∧ State.Ends a t :=
  ⟨_, unlessReset_eq f h, hf ▸ finish_ends a⟩

end Sys2Proof.Machine
end

