-- ==== Sys2Proof/Laws/Reports.lean ====
section
/-! SUPPORT. The report queue (R167): what placing a report moves, that a report once made stays through reports of other
keys, and that what ends a command takes no report away. -/

namespace Sys2Proof.Machine

variable (s : State)

/-- Placing a report moves the queue, the marker and the model's own counters, and nothing else. -/
theorem putReport_eq (a : Addr) (slot : Option Nat) (body : ReportBody) :
    ∃ q o n d, s.putReport a slot body = { s with reports := q, overrun := o, serial := n, discards := d } := by
  unfold State.putReport
  split
  · exact ⟨_, s.overrun, _, s.discards, rfl⟩
  · split
    · exact ⟨_, s.overrun, _, s.discards, rfl⟩
    · exact ⟨s.reports, _, s.serial, _, rfl⟩

/-- An overwriting finds the key and writes the contents there; the reports of other keys stay. -/
theorem overwrite_spec (a : Addr) (slot : Option Nat) (body : ReportBody) (n : Nat) (l q : List Report)
    (h : overwrite a slot body n l = some q) :
    (∃ r ∈ l, { addr := a, slot := slot, body := coalesce r.body body, stamp := n } ∈ q) ∧
      ∀ r ∈ l, r.body.kind ≠ body.kind ∨ r.addr ≠ a → r ∈ q := by
  induction l generalizing q with
  | nil => cases h
  | cons r l ih =>
    unfold overwrite at h
    split at h
    · rename_i hk
      cases h
      refine ⟨⟨r, by simp, by simp⟩, fun x hx ho => ?_⟩
      rcases List.mem_cons.mp hx with rfl | hx
      · simp only [hasKey, Bool.and_eq_true, decide_eq_true_eq] at hk
        exact (ho.elim (fun h => h hk.1) fun h => h hk.2).elim
      · exact List.mem_cons_of_mem _ hx
    · obtain ⟨q', hq, rfl⟩ := Option.map_eq_some_iff.mp h
      obtain ⟨⟨x, hx, hx'⟩, hr⟩ := ih q' hq
      refine ⟨⟨x, List.mem_cons_of_mem _ hx, List.mem_cons_of_mem _ hx'⟩, fun x hx ho => ?_⟩
      rcases List.mem_cons.mp hx with rfl | hx
      · exact List.mem_cons_self
      · exact List.mem_cons_of_mem _ (hr x hx ho)

theorem coalesce_other (old body : ReportBody) (h : body.kind ≠ .drop) : coalesce old body = body := by
  cases body <;> first | rfl | (cases old <;> rfl) | exact absurd rfl h

/-- A report placed is in the queue, or the queue was full and the marker is set. -/
theorem putReport_reported (a : Addr) (slot : Option Nat) (body : ReportBody) (h : body.kind ≠ .drop) :
    State.Reported s (s.putReport a slot body) a slot body := by
  unfold State.putReport
  split
  · rename_i q hq
    obtain ⟨⟨r, -, hr⟩, -⟩ := overwrite_spec a slot body _ _ _ hq
    rw [coalesce_other _ _ h] at hr
    exact .inl ⟨_, hr, rfl, rfl, rfl⟩
  · split
    · exact .inl ⟨_, List.mem_append_right _ List.mem_cons_self, rfl, rfl, rfl⟩
    · rename_i hl
      exact .inr ⟨not_lt.mp hl, rfl⟩

/-- A report stays through the placing of one with another key, and so does the marker. -/
theorem putReport_keeps (a : Addr) (slot : Option Nat) (body : ReportBody) :
    (∀ r ∈ s.reports, r.body.kind ≠ body.kind ∨ r.addr ≠ a → r ∈ (s.putReport a slot body).reports) ∧
      (s.overrun = true → (s.putReport a slot body).overrun = true) := by
  unfold State.putReport
  split
  · rename_i q hq
    exact ⟨(overwrite_spec a slot body _ _ _ hq).2, id⟩
  · split
    · exact ⟨fun r hr _ => List.mem_append_left _ hr, id⟩
    · exact ⟨fun r hr _ => hr, fun _ => rfl⟩

/-- From `s` to `t` no report but those of one kind was taken away, and the marker not cleared. -/
def State.KeepsBut (s t : State) (kind : ReportKind) : Prop :=
  (∀ r ∈ s.reports, r.body.kind ≠ kind → r ∈ t.reports) ∧ (s.overrun = true → t.overrun = true)

theorem State.Reported.mono {s t u : State} {a : Addr} {slot : Option Nat} {body : ReportBody} {kind : ReportKind}
    (h : State.Reported s t a slot body) (hk : t.KeepsBut u kind) (hb : body.kind ≠ kind) :
    State.Reported s u a slot body := by
  rcases h with ⟨r, hr, h1, h2, h3⟩ | ⟨h1, h2⟩
  · exact .inl ⟨r, hk.1 r hr (h3 ▸ hb), h1, h2, h3⟩
  · exact .inr ⟨h1, hk.2 h2⟩

theorem putReport_keepsBut (a : Addr) (slot : Option Nat) (body : ReportBody) :
    s.KeepsBut (s.putReport a slot body) body.kind :=
  ⟨fun r hr h => (putReport_keeps s a slot body).1 r hr (.inl h), (putReport_keeps s a slot body).2⟩

theorem State.KeepsBut.rfl {s : State} {k : ReportKind} : s.KeepsBut s k := ⟨fun _ h _ => h, id⟩

theorem State.KeepsBut.trans {s t u : State} {k : ReportKind} (h1 : s.KeepsBut t k) (h2 : t.KeepsBut u k) :
    s.KeepsBut u k :=
  ⟨fun r hr hk => h2.1 r (h1.1 r hr hk) hk, fun ho => h2.2 (h1.2 ho)⟩

theorem State.KeepsBut.of_eq {s t u : State} {k : ReportKind} (h : s.KeepsBut t k) (h1 : u.reports = t.reports)
    (h2 : u.overrun = t.overrun) : s.KeepsBut u k := by
  unfold State.KeepsBut at *
  rwa [h1, h2]

theorem returnBuffer_queue : s.returnBuffer.reports = s.reports ∧ s.returnBuffer.overrun = s.overrun := by
  unfold State.returnBuffer
  split <;> exact ⟨rfl, rfl⟩

theorem recordDrop_keepsBut (e : Entry) (c : DropCause) : s.KeepsBut (s.recordDrop e c) .drop := by
  unfold State.recordDrop
  split
  · exact putReport_keepsBut s _ _ _
  · unfold State.modRec
    split <;> exact .rfl
  · exact .rfl

theorem dropEntry_keepsBut (id : Nat) (c : DropCause) : s.KeepsBut (s.dropEntry id c) .drop := by
  unfold State.dropEntry
  split
  · exact .rfl
  · refine State.KeepsBut.trans ?_ (recordDrop_keepsBut _ _ _)
    exact State.KeepsBut.of_eq .rfl (returnBuffer_queue _).1 (returnBuffer_queue _).2

theorem scanQueue_keepsBut (l : List Entry) : s.KeepsBut (scanQueue l s).1 .drop := by
  induction l generalizing s with
  | nil => exact .rfl
  | cons e l ih =>
    unfold scanQueue
    split
    · exact .rfl
    · exact (dropEntry_keepsBut s _ _).trans (ih _)
    · refine State.KeepsBut.trans ?_ (ih _)
      split
      · exact dropEntry_keepsBut s _ _
      · exact .rfl

theorem choose_keepsBut : s.KeepsBut s.choose .drop := by
  unfold State.choose
  have hq := scanQueue_keepsBut s s.fwd
  split
  · exact .rfl
  · split
    · exact .rfl
    · split <;> (rename_i h; rw [h] at hq; exact hq)

/-- What ends a command takes no report away but may raise the count of a DROP report. -/
theorem finish_keepsBut : s.KeepsBut s.finish .drop := by
  have h1 : s.KeepsBut s.chooseIfWork .drop := by
    unfold State.chooseIfWork
    split
    · exact choose_keepsBut s
    · exact .rfl
  unfold State.finish
  obtain ⟨rx, free, hy, -⟩ := syncReceiver_spec s.chooseIfWork
  obtain ⟨tx, hd, -⟩ := contend_spec s.chooseIfWork.syncReceiver
  rw [hd, hy]
  exact h1.of_eq rfl rfl

end Sys2Proof.Machine
end

