-- ==== Sys2Proof/Laws/Table.lean ====
section
/-! SUPPORT. Reading a slot after the shared operations on the table and the route: what each leaves in every slot, and
which parts of the state it moves at all. -/

namespace Sys2Proof.Machine

variable (s : State)

/-! ## Slots -/

theorem rec?_lt {i : Nat} {r : Record} (h : s.rec? i = some r) : i < s.slots.length := by
  have := rec?_eq_some s h
  exact (List.getElem?_eq_some_iff.mp this).1

/-- A slot read after one was written. -/
theorem rec?_setSlot (i j : Nat) (o : Option Record) (h : i < s.slots.length) :
    (s.setSlot i o).rec? j = if j = i then o else s.rec? j := by
  simp only [State.rec?, setSlot_slots, List.getElem?_set]
  by_cases hj : j = i
  · subst hj
    simp [h]
  · simp [hj, Ne.symm hj]

theorem rec?_congr {a b : State} (h : a.slots = b.slots) (i : Nat) : a.rec? i = b.rec? i := by
  simp [State.rec?, h]

theorem modRec_eq {i : Nat} {r : Record} (f : Record → Record) (h : s.rec? i = some r) :
    s.modRec i f = s.setSlot i (some (f r)) := by
  simp [State.modRec, h]

theorem cfg_congr {a b : State} (h : a.host = b.host) : a.cfg = b.cfg := by
  have : a.settings = b.settings := congrArg HostPart.settings h
  simp [State.cfg, this]

theorem nowMs_congr {a b : State} (h : a.host = b.host) : a.nowMs = b.nowMs := by
  have : a.now = b.now := congrArg HostPart.now h
  simp [State.nowMs, this]

/-- A slot after what ends a command, the no-path counter apart. -/
theorem State.Ends.slot {a b : State} (h : a.Ends b) (i : Nat) :
    (b.rec? i).map Record.uncounted = (a.rec? i).map Record.uncounted := by
  have ht := congrArg (fun l => (l[i]?).join) h.table
  simp only [State.table, List.getElem?_map] at ht
  unfold State.rec?
  cases hb : b.slots[i]? with
  | none => cases ha : a.slots[i]? with
    | none => rfl
    | some o => cases o <;> simp_all
  | some p => cases ha : a.slots[i]? with
    | none => cases p <;> simp_all
    | some o => cases p <;> cases o <;> simp_all

/-! ## The route -/

/-- Reselection moves the route, the mark of work and the reports, and nothing else (R115). -/
theorem reselect_eq : ∃ h a w q o n d, s.reselect =
    { s with nextHop := h, advCost := a, workAvailable := w, reports := q, overrun := o, serial := n, discards := d } ∧
      (s.workAvailable = true → w = true) := by
  unfold State.reselect
  split
  · exact ⟨_, _, _, _, _, _, _, rfl, id⟩
  · let s1 : State := { s with nextHop := hopOf s.selectHop, advCost := s.costThrough s.selectHop, workAvailable :=
      (s.workAvailable || decide (s.nextHop ≠ hopOf s.selectHop)) }
    obtain ⟨q, o, n, d, h⟩ := putReport_eq s1 0 ((hopOf s.selectHop).map NextHop.slot)
      (.route (hopAddr (hopOf s.selectHop)) (s.costThrough s.selectHop) (hopAddr s.nextHop) s.advCost)
    rw [h]
    exact ⟨_, _, _, _, _, _, _, rfl, fun hw => by simp [s1, hw]⟩

theorem reselect_keepsBut : s.KeepsBut s.reselect .route := by
  unfold State.reselect
  split
  · exact .rfl
  · let s1 : State := { s with nextHop := hopOf s.selectHop, advCost := s.costThrough s.selectHop, workAvailable :=
      (s.workAvailable || decide (s.nextHop ≠ hopOf s.selectHop)) }
    have h : s.KeepsBut s1 .route := .rfl
    exact h.trans (putReport_keepsBut s1 _ _ _)

/-- A record's costs recomputed: the record costed, and reselection at most (R110, R115). -/
theorem recost_eq {i : Nat} {r : Record} (h : s.rec? i = some r) :
    s.recost i = s.setSlot i (some (r.costed s.cfg)) ∧ (r.costed s.cfg).pathCost = r.pathCost ∧
        (r.costed s.cfg).eligible = r.eligible ∨
      s.recost i = (s.setSlot i (some (r.costed s.cfg))).reselect := by
  unfold State.recost
  rw [h]
  dsimp only
  split
  · rename_i hc
    exact .inl ⟨rfl, hc⟩
  · exact .inr rfl

/-- The record of a slot after its rate class and costs are recomputed. -/
def Record.rerated (c : Settings) (r : Record) : Record :=
  Record.costed c { r with trim := { r.trim with rUsed := rateUsed c r } }

/-- The rate class recomputed and the Path Selector told: the record rerated, and reselection at most (R104, R110). -/
theorem rerate_eq {i : Nat} {r : Record} (h : s.rec? i = some r) :
    s.rerate i = s.setSlot i (some (r.rerated s.cfg)) ∨ s.rerate i = (s.setSlot i (some (r.rerated s.cfg))).reselect := by
  have hl := rec?_lt s h
  unfold State.rerate
  rw [modRec_eq s _ h]
  have h1 : (s.setSlot i (some { r with trim := { r.trim with rUsed := rateUsed s.cfg r } })).rec? i =
      some { r with trim := { r.trim with rUsed := rateUsed s.cfg r } } := by
    rw [rec?_setSlot s i i _ hl]
    simp
  have h2 : ∀ o, (s.setSlot i (some { r with trim := { r.trim with rUsed := rateUsed s.cfg r } })).setSlot i o =
      s.setSlot i o := by
    intro o
    simp [State.setSlot]
  rcases recost_eq _ h1 with ⟨h3, -⟩ | h3 <;> rw [h3, h2]
  · exact .inl rfl
  · exact .inr rfl

theorem setSlot_setSlot (i : Nat) (a b : Option Record) : (s.setSlot i a).setSlot i b = s.setSlot i b := by
  simp [State.setSlot]

theorem setSlot_self {i : Nat} {r : Record} (h : s.rec? i = some r) : s.setSlot i (some r) = s := by
  have := rec?_eq_some s h
  simp [State.setSlot, List.set_eq_of_length_le, List.getElem?_eq_some_iff] at *
  obtain ⟨hl, he⟩ := this
  have : s.slots.set i (some r) = s.slots := by
    rw [← he]
    exact List.set_getElem_self hl
  rw [this]

/-- The trigger assessed: the record with its trim started, or as it was (R96). -/
theorem assessTrim_eq {i : Nat} {r : Record} (h : s.rec? i = some r) :
    s.assessTrim i = s.setSlot i (some (if trimTriggers s.cfg r then { r with trim := r.trim.started s.cfg s.now }
      else r)) :=
  modRec_eq s _ h

/-- A slot written, and reselection at most. -/
def State.Rewritten (s t : State) (i : Nat) (r : Record) : Prop :=
  t = s.setSlot i (some r) ∨ t = (s.setSlot i (some r)).reselect

/-- A change of fade state or shadow flag announced (R86): the record rerated, its trim started where it may. -/
theorem announceFade_eq {i : Nat} {r : Record} (was : Fade) (h : s.rec? i = some r) :
    (r.fade.state = was.state ∧ r.fade.shadow = was.shadow ∧ s.announceFade i was = s) ∨
      (¬(r.fade.state = was.state ∧ r.fade.shadow = was.shadow) ∧
        s.Rewritten (s.announceFade i was) i
          ((if r.fade.state = .clear ∧ was.state ≠ .clear ∧ trimTriggers s.cfg r = true then
            { r with trim := r.trim.started s.cfg s.now } else r).rerated s.cfg)) := by
  have hl := rec?_lt s h
  unfold State.announceFade
  rw [h]
  dsimp only
  split
  · rename_i hc
    exact .inl ⟨hc.1, hc.2, rfl⟩
  · rename_i hc
    refine .inr ⟨hc, ?_⟩
    by_cases hf : r.fade.state = .clear ∧ was.state ≠ .clear
    · rw [if_pos hf, assessTrim_eq s h]
      have hr := rec?_setSlot s i i (some (if trimTriggers s.cfg r then
        { r with trim := r.trim.started s.cfg s.now } else r)) hl
      rw [if_pos rfl] at hr
      have := rerate_eq _ hr
      simp only [setSlot_setSlot] at this
      by_cases ht : trimTriggers s.cfg r = true
      · simpa [State.Rewritten, hf, ht] using this
      · simpa [State.Rewritten, hf, ht] using this
    · rw [if_neg hf]
      have hn : ¬(r.fade.state = .clear ∧ was.state ≠ .clear ∧ trimTriggers s.cfg r = true) :=
        fun hx => hf ⟨hx.1, hx.2.1⟩
      rw [if_neg hn]
      exact rerate_eq s h

/-- What a rewritten slot moves: the slot, the route, the mark of work and the reports but for ROUTE. -/
theorem State.Rewritten.spec {s t : State} {i : Nat} {r : Record} (h : s.Rewritten t i r) (hl : i < s.slots.length) :
    (∀ j, t.rec? j = if j = i then some r else s.rec? j) ∧ t.host = s.host ∧ t.duty = s.duty ∧ t.check = s.check ∧
      t.relayed = s.relayed ∧ t.tx = s.tx ∧ t.rx = s.rx ∧ t.fwd = s.fwd ∧ t.free = s.free ∧ s.KeepsBut t .route := by
  rcases h with rfl | rfl
  · exact ⟨fun j => rec?_setSlot s i j _ hl, rfl, rfl, rfl, rfl, rfl, rfl, rfl, rfl, .rfl⟩
  · obtain ⟨h, a, w, q, o, n, d, he, -⟩ := reselect_eq (s.setSlot i (some r))
    have hk := reselect_keepsBut (s.setSlot i (some r))
    rw [he] at hk ⊢
    exact ⟨fun j => rec?_setSlot s i j _ hl, rfl, rfl, rfl, rfl, rfl, rfl, rfl, rfl, hk⟩

end Sys2Proof.Machine
end

