-- ==== Sys2Proof/Laws/Loss.lean ====
section
/-! SUPPORT. What follows a record's change at the Path Selector (R110, R115), said once as `State.Reselects`, and what the
other blocks do when an UP link ends (R36, R38), said once as `State.LinkEnds`. -/

namespace Sys2Proof.Machine

/-! ## The report queue by length -/

theorem overwrite_length (a : Addr) (slot : Option Nat) (body : ReportBody) (n : Nat) (l q : List Report)
    (h : overwrite a slot body n l = some q) : q.length = l.length := by
  induction l generalizing q with
  | nil => cases h
  | cons r l ih =>
    unfold overwrite at h
    split at h
    · cases h; rfl
    · obtain ⟨q', hq, rfl⟩ := Option.map_eq_some_iff.mp h
      simp [ih q' hq]

theorem putReport_length (s : State) (a : Addr) (slot : Option Nat) (body : ReportBody) :
    (s.putReport a slot body).reports.length ≤ s.reports.length + 1 := by
  unfold State.putReport
  split
  · rename_i q hq
    simp [overwrite_length a slot body _ _ _ hq]
  · split <;> simp

/-- A report meets the queue, the serial of the contents and the overrun marker alone (R167). -/
theorem putReport_queue_congr {a b : State} (addr : Addr) (slot : Option Nat) (body : ReportBody)
    (h1 : a.reports = b.reports) (h2 : a.serial = b.serial) (h3 : a.overrun = b.overrun) :
    (a.putReport addr slot body).queue = (b.putReport addr slot body).queue := by
  unfold State.putReport
  rw [h1, h2]
  split
  · simp [State.queue, h3]
  · split <;> simp [State.queue, h3, h1]

/-! ## Reselection -/

theorem reselect_route (s : State) : s.reselect.route = (hopOf s.selectHop, s.costThrough s.selectHop) := by
  unfold State.reselect
  split
  · rename_i h; exact Prod.ext h.1 h.2
  · obtain ⟨q, o, n, d, h⟩ := putReport_eq { s with
        nextHop := hopOf s.selectHop, advCost := s.costThrough s.selectHop,
        workAvailable := s.workAvailable || decide (s.nextHop ≠ hopOf s.selectHop) } 0
      ((hopOf s.selectHop).map NextHop.slot)
      (.route (hopAddr (hopOf s.selectHop)) (s.costThrough s.selectHop) (hopAddr s.nextHop) s.advCost)
    rw [h]; rfl

/-- The choice of the next hop reads the table, the settings and the next hop alone. -/
theorem reselect_route_congr {a b : State} (h1 : a.slots = b.slots) (h2 : a.settings = b.settings)
    (h3 : a.nextHop = b.nextHop) : a.reselect.route = b.reselect.route := by
  have hc : a.cfg = b.cfg := by simp [State.cfg, h2]
  have hr : a.rec? = b.rec? := by funext i; simp [State.rec?, h1]
  have hcur : a.currentHop = b.currentHop := by simp [State.currentHop, h3, hr]
  have hbest : a.bestChoice = b.bestChoice := by simp [State.bestChoice, h1]
  have hs : a.selectHop = b.selectHop := by simp [State.selectHop, hc, hcur, hbest]
  rw [reselect_route, reselect_route, hs]
  simp [State.costThrough, hc]

/-- A change of the route is reported. -/
theorem reselect_reported (s : State) (h : s.reselect.route ≠ s.route) :
    State.Reported s s.reselect 0 (s.reselect.nextHop.map NextHop.slot)
      (.route (hopAddr s.reselect.nextHop) s.reselect.advCost (hopAddr s.nextHop) s.advCost) := by
  have hr := reselect_route s
  have h1 : s.reselect.nextHop = hopOf s.selectHop := congrArg Prod.fst hr
  have h2 : s.reselect.advCost = s.costThrough s.selectHop := congrArg Prod.snd hr
  rw [h1, h2]
  unfold State.reselect
  split
  · rename_i hc; exact absurd (hr.trans (Prod.ext hc.1.symm hc.2.symm)) h
  · exact putReport_reported { s with
        nextHop := hopOf s.selectHop, advCost := s.costThrough s.selectHop,
        workAvailable := s.workAvailable || decide (s.nextHop ≠ hopOf s.selectHop) } _ _ _ (by simp [ReportBody.kind])

theorem reselect_length (s : State) : s.reselect.reports.length ≤ s.reports.length + 1 := by
  unfold State.reselect
  split
  · omega
  · exact putReport_length { s with
        nextHop := hopOf s.selectHop, advCost := s.costThrough s.selectHop,
        workAvailable := s.workAvailable || decide (s.nextHop ≠ hopOf s.selectHop) } _ _ _

/-! ## Reselection after a record's change (R110, R115) -/

/-- What follows a record's change is said of an earlier state too, before which only the slot itself, with the same
path cost and eligible flag, and up to `n` reports came. -/
theorem State.Reselects.of_base {k n : Nat} {s m t : State} {i : Nat} {r q r' : Record} (h : State.Reselects k m t i q r')
    (hp : q.pathCost = r.pathCost) (he : q.eligible = r.eligible)
    (hs : ∀ o, (m.setSlot i o).slots = (s.setSlot i o).slots) (hc : m.settings = s.settings) (hr : m.route = s.route)
    (hl : m.reports.length ≤ s.reports.length + n) : State.Reselects (n + k) s t i r r' := by
  have hh : m.nextHop = s.nextHop := congrArg Prod.fst hr
  have ha : m.advCost = s.advCost := congrArg Prod.snd hr
  refine ⟨fun hx => ?_, fun h1 h2 => ?_, fun hx => ?_⟩
  · rw [h.changed (by rw [hp, he]; exact hx)]
    exact reselect_route_congr (hs _) hc hh
  · rw [h.same (h1.trans hp.symm) (h2.trans he.symm), hr]
  · rcases h.report (by rw [hr]; exact hx) with ⟨w, h1, h2, h3, h4⟩ | ⟨h1, h2⟩
    · exact .inl ⟨w, h1, h2, h3, by rw [h4, hh, ha]⟩
    · exact .inr ⟨by omega, h2⟩

/-- What ends a command moves neither the route nor a ROUTE report. -/
theorem State.Reselects.finish {n : Nat} {s t : State} {i : Nat} {r r' : Record} (h : State.Reselects n s t i r r') :
    State.Reselects n s t.finish i r r' := by
  have hr := (finish_ends t).route
  have hh : t.finish.nextHop = t.nextHop := congrArg Prod.fst hr
  have ha : t.finish.advCost = t.advCost := congrArg Prod.snd hr
  refine ⟨fun hx => hr.trans (h.changed hx), fun h1 h2 => hr.trans (h.same h1 h2), fun hx => ?_⟩
  rw [hh, ha]
  rcases h.report (by rw [← hr]; exact hx) with ⟨w, h1, h2, h3, h4⟩ | ⟨h1, h2⟩
  · exact .inl ⟨w, (finish_keepsBut t).1 w h1 (by rw [h4]; simp [ReportBody.kind]), h2, h3, h4⟩
  · exact .inr ⟨h1, (finish_keepsBut t).2 h2⟩

/-- The costs recomputed: reselection where the path cost or the eligible flag changed (R110, R115). -/
theorem recost_reselects {s : State} {i : Nat} {r : Record} (h : s.rec? i = some r) :
    State.Reselects 0 s (s.recost i) i r (r.costed s.cfg) := by
  unfold State.recost
  rw [h]
  dsimp only
  split
  · rename_i hc
    exact ⟨fun hx => absurd hc (by tauto), fun _ _ => rfl, fun hx => absurd rfl hx⟩
  · rename_i hc
    exact ⟨fun _ => rfl, fun h1 h2 => absurd ⟨h1, h2⟩ hc, fun hx => reselect_reported (s.setSlot i _) hx⟩

/-- The rate class recomputed and the Path Selector told (R104, R110, R115). -/
theorem rerate_reselects {s : State} {i : Nat} {r : Record} (h : s.rec? i = some r) :
    State.Reselects 0 s (s.rerate i) i r (r.rerated s.cfg) := by
  have hl := rec?_lt s h
  unfold State.rerate
  rw [modRec_eq s _ h]
  have h1 : (s.setSlot i (some { r with trim := { r.trim with rUsed := rateUsed s.cfg r } })).rec? i =
      some { r with trim := { r.trim with rUsed := rateUsed s.cfg r } } := by
    rw [rec?_setSlot s i i _ hl, if_pos rfl]
  exact (recost_reselects h1).of_base rfl rfl (fun o => congrArg State.slots (setSlot_setSlot s i _ o)) rfl rfl
    (Nat.le_refl _)

/-- A change of fade state or shadow flag announced (R86, R96, R115): the record as the announcement leaves it. -/
theorem announceFade_reselects {s : State} {i : Nat} {r : Record} (was : Fade) (h : s.rec? i = some r) :
    ∃ r', (s.announceFade i was).rec? i = some r' ∧ State.Reselects 0 s (s.announceFade i was) i r r' := by
  have hl := rec?_lt s h
  unfold State.announceFade
  rw [h]
  dsimp only
  split
  · refine ⟨r, h, fun hx => ?_, fun _ _ => rfl, fun hx => absurd rfl hx⟩
    rcases hx with hx | hx <;> exact absurd rfl hx
  · have rewritten : ∀ (m : State) (q : Record), m.rec? i = some q → (m.rerate i).rec? i = some (q.rerated m.cfg) := by
      intro m q hq
      have hm := rec?_lt m hq
      have : m.Rewritten (m.rerate i) i (q.rerated m.cfg) := rerate_eq m hq
      rw [(this.spec hm).1 i, if_pos rfl]
    split
    · rw [assessTrim_eq s h]
      generalize hq : (if trimTriggers s.cfg r = true then { r with trim := r.trim.started s.cfg s.now } else r) = q
      have h1 : (s.setSlot i (some q)).rec? i = some q := by rw [rec?_setSlot s i i _ hl, if_pos rfl]
      refine ⟨_, rewritten _ q h1, (rerate_reselects h1).of_base ?_ ?_
        (fun o => congrArg State.slots (setSlot_setSlot s i _ o)) rfl rfl (Nat.le_refl _)⟩
      · rw [← hq]; split <;> rfl
      · rw [← hq]; split <;> rfl
    · exact ⟨_, rewritten s r h, rerate_reselects h⟩

/-! ## The end of a check -/

/-- A running check with its record ends: the cause, and its CHECK report; nothing else but the report queue moves
(R157). -/
theorem endCheck_eq {s : State} {c : CheckRecord} (cause : CheckCause) (h1 : s.check.state ≠ .idle)
    (h2 : s.check.record = some c) :
    s.endCheck cause = State.putReport c.peer (some c.slot) (.check cause c.countCode c.settled s.check.live)
      { s with check := { s.check with state := .idle, endCause := cause } } := by
  have hr : s.check.running = true := by simp [Checker.running, h1]
  unfold State.endCheck
  rw [hr, h2]

/-- With no check running, or none on the slot, the loss of a link leaves the checker alone. -/
theorem endCheckOn_stays {s : State} {i : Nat}
    (h : s.check.state = .idle ∨ ∀ c, s.check.record = some c → c.slot ≠ i) : s.endCheckOn i = s := by
  unfold State.endCheckOn
  split
  · rename_i c hc
    split
    · rename_i hi
      rcases h with h | h
      · have hr : s.check.running = false := by simp [Checker.running, h]
        unfold State.endCheck
        rw [hr]
      · exact absurd hi (h c hc)
    · rfl
  · rfl

/-- The end of a check on a slot moves the checker and the report queue alone. -/
theorem endCheckOn_eq (s : State) (i : Nat) : ∃ k q o n d, s.endCheckOn i =
    { s with check := k, reports := q, overrun := o, serial := n, discards := d } := by
  unfold State.endCheckOn
  split
  · rename_i c hc
    split
    · unfold State.endCheck
      split
      · rename_i c' _ _
        obtain ⟨q, o, n, d, h⟩ := putReport_eq { s with check := { s.check with state := .idle, endCause := .linkLost } }
          c'.peer (some c'.slot) (.check .linkLost c'.countCode c'.settled s.check.live)
        rw [h]; exact ⟨_, _, _, _, _, rfl⟩
      · exact ⟨_, _, _, _, _, rfl⟩
    · exact ⟨_, _, _, _, _, rfl⟩
  · exact ⟨_, _, _, _, _, rfl⟩

theorem endCheckOn_keepsBut (s : State) (i : Nat) : s.KeepsBut (s.endCheckOn i) .check := by
  unfold State.endCheckOn
  split
  · rename_i c hc
    split
    · unfold State.endCheck
      split
      · rename_i c' _ _
        exact State.KeepsBut.trans
          (t := { s with check := { s.check with state := .idle, endCause := .linkLost } }) .rfl
          (putReport_keepsBut _ c'.peer (some c'.slot) (.check .linkLost c'.countCode c'.settled s.check.live))
      · exact .rfl
    · exact .rfl
  · exact .rfl

/-! ## The reflect buffer -/

/-- A REFLECT is withdrawn, or the sender is as it was (R16, R153). -/
theorem withdrawReflect_eq (s : State) (peer : Addr) : ∃ x, s.withdrawReflect peer = { s with tx := x } ∧
    (∀ q, s.tx.reflect = some q → q.prober = peer → (s.tx.state ≠ .sending ∨ s.tx.chosen ≠ some (.reflect q.id)) →
      x = { s.tx with reflect := none }) ∧
    (∀ q, s.tx.reflect = some q → s.tx.state = .sending → s.tx.chosen = some (.reflect q.id) → x = s.tx) ∧
    ((∀ q, s.tx.reflect = some q → q.prober ≠ peer) → x = s.tx) := by
  unfold State.withdrawReflect
  split
  · rename_i b hb
    split
    · rename_i hc
      refine ⟨_, rfl, fun _ _ _ _ => rfl, fun q hq h1 h2 => ?_, fun h => absurd hc.1 (h b hb)⟩
      rw [hb] at hq; cases hq; exact absurd ⟨h1, h2⟩ hc.2
    · rename_i hc
      refine ⟨s.tx, rfl, fun q hq h1 h2 => ?_, fun _ _ _ _ => rfl, fun _ => rfl⟩
      rw [hb] at hq; cases hq
      exact absurd ⟨h1, fun h3 => h2.elim (fun h4 => h4 h3.1) fun h4 => h4 h3.2⟩ hc
  · rename_i hb
    refine ⟨s.tx, rfl, fun q hq => ?_, fun q hq => ?_, fun _ => rfl⟩ <;> (rw [hb] at hq; cases hq)

/-! ## The loss announced -/

theorem State.Reported.after {s t : State} {a : Addr} {slot : Option Nat} {body : ReportBody} (n : Nat)
    {s0 : State} (h : State.Reported s t a slot body) (hl : s.reports.length ≤ s0.reports.length + n) :
    State.ReportedAfter n s0 t a slot body := by
  rcases h with h | ⟨h1, h2⟩
  · exact .inl h
  · exact .inr ⟨by omega, h2⟩

/-- The announcements of a loss, on a state `m` that differs from `s` in the slot's record, at most one report and the mark
of work (R36). -/
theorem announceLoss_links {s m : State} {i : Nat} (peer : Addr) (h3 : m.nextHop = s.nextHop)
    (h5 : m.advCost = s.advCost) (h6 : m.paths = s.paths) (h7 : m.check = s.check) (h8 : m.tx = s.tx)
    (h9 : m.reports.length ≤ s.reports.length + 1) : State.LinkEnds s m (m.announceLoss i peer) i peer := by
  obtain ⟨h, a, w, q, o, n, d, he, -⟩ := reselect_eq m
  have hrep := reselect_reported m
  have hlen := reselect_length m
  obtain ⟨A, hA⟩ : ∃ A, A = m.reselect.removePathsVia i := ⟨_, rfl⟩
  obtain ⟨k, q', o', n', d', hB⟩ := endCheckOn_eq A i
  have hkeep := endCheckOn_keepsBut A i
  obtain ⟨x, hx, x1, x2, x3⟩ := withdrawReflect_eq (A.endCheckOn i) peer
  have ht : m.announceLoss i peer = { A.endCheckOn i with tx := x } := by
    rw [← hx, hA]; rfl
  have hAtx : A.tx = s.tx := by rw [hA, he]; exact h8
  have hAck : A.check = s.check := by rw [hA, he]; exact h7
  have hBtx : (A.endCheckOn i).tx = s.tx := by rw [hB]; exact hAtx
  have hBr : (A.endCheckOn i).route = m.reselect.route := by rw [hB, hA]; rfl
  have hAr : A.reports = m.reselect.reports ∧ A.overrun = m.reselect.overrun := by rw [hA]; exact ⟨rfl, rfl⟩
  have hAs : A.serial = m.reselect.serial := by rw [hA]; rfl
  have hends : ∀ c, s.check.record = some c → c.slot = i → s.check.state ≠ .idle →
      A.endCheckOn i = State.putReport c.peer (some c.slot) (.check .linkLost c.countCode c.settled s.check.live)
        { A with check := { s.check with state := .idle, endCause := .linkLost } } := by
    intro c hc1 hc2 hc3
    have e2 := endCheck_eq (s := A) (c := c) .linkLost (by rw [hAck]; exact hc3) (by rw [hAck]; exact hc1)
    rw [hAck] at e2
    rw [← e2]
    unfold State.endCheckOn
    rw [hAck, hc1]
    exact if_pos hc2
  rw [hBtx] at x1 x2 x3
  rw [ht]
  have hrt : ({ A.endCheckOn i with tx := x } : State).route = m.reselect.route := hBr
  refine ⟨hrt, fun hs => ?_, fun c hc1 hc2 hc3 => ?_, fun hne => ?_, ?_, fun c hc1 hc2 hc3 => ?_, fun hs => ?_, x1, x2,
    x3⟩
  · change (A.endCheckOn i).queue = _
    rw [endCheckOn_stays (by rw [hAck]; exact hs)]
    exact Prod.ext hAr.1 hAr.2
  · change (A.endCheckOn i).queue = _
    rw [hends c hc1 hc2 hc3]
    exact putReport_queue_congr _ _ _ hAr.1 hAs hAr.2
  · have hr := hrep (by
      rw [← hrt]; intro hh; apply hne; rw [hh]; exact Prod.ext h3 h5)
    have h10 := State.Reported.mono (kind := .check)
      (u := { A.endCheckOn i with tx := x }) (hr) (State.KeepsBut.trans (t := A)
        (State.KeepsBut.of_eq .rfl hAr.1 hAr.2) hkeep) (by simp [ReportBody.kind])
    rw [h3, h5] at h10
    have e1 : ({ A.endCheckOn i with tx := x } : State).nextHop = m.reselect.nextHop := congrArg Prod.fst hBr
    have e2 : ({ A.endCheckOn i with tx := x } : State).advCost = m.reselect.advCost := congrArg Prod.snd hBr
    rw [e1, e2]
    exact h10.after 1 h9
  · change (A.endCheckOn i).paths = _
    rw [hB, hA, he, ← h6]; rfl
  · have e := hends c hc1 hc2 hc3
    refine ⟨?_, ?_⟩
    · change (A.endCheckOn i).check = _
      obtain ⟨q2, o2, n2, d2, h20⟩ := putReport_eq
        { A with check := { s.check with state := .idle, endCause := .linkLost } } c.peer (some c.slot)
        (.check .linkLost c.countCode c.settled s.check.live)
      rw [e, h20]
    · have h21 := putReport_reported
        { A with check := { s.check with state := .idle, endCause := .linkLost } } c.peer (some c.slot)
        (.check .linkLost c.countCode c.settled s.check.live) (by simp [ReportBody.kind])
      rw [← e] at h21
      exact State.Reported.after (s := A) 2 h21 (by rw [hAr.1]; omega)
  · change (A.endCheckOn i).check = _
    rw [endCheckOn_stays (by rw [hAck]; exact hs), hAck]

end Sys2Proof.Machine
end

