-- ==== Sys2Proof/Tests/Slice0.lean ====
section
/-! SUPPORT. Tests of the model on the manual's own worked examples and tables, the smoke test of WellFormed, and for
every statement with hypotheses a concrete state that meets them. Expected values are the manual's, or worked by hand
from its rules. -/

namespace Sys2Proof.Tests

set_option Elab.async false

open Sys2Proof Sys2Proof.Machine

/-! ## States to test on -/

/-- The default settings with the address 0x0A3 of the worked examples. -/
def cfgT : Settings := { Settings.defaults with address := 0x0A3#12 }

/-- A station ON AIR that listens, with empty queues. -/
def onAir : State :=
  { State.reset with station := .onAir, settings := some cfgT, reports := [], attnLow := false, free := 47,
                     rx := { state := .hunt, frame := none, holds := true, heldAtSync := true, request := false } }

/-- A station in READY. -/
def ready : State := { State.reset with station := .ready, settings := some cfgT }

/-- An advertisement with a cost and a next hop. -/
def advT (cost : Nat) (hop : Addr) : Advert :=
  { cost := cost, nextHop := hop, mode := .active, window := 25, gateway := false, room := true }

/-- A HEARD record of 0x117. -/
def heard : Record := Record.admitted cfgT 0x117#12 0 70 (advT 40 0x010#12)

/-- An UP record of a peer with an echo, a step, the rate class used and an advertised cost. -/
def upRec (peer : Addr) (echo : Option Nat) (step rUsed cost : Nat) : Record :=
  Record.costed cfgT
    { heard with peer := peer, link := .up, advert := advT cost 0x010#12,
                 terms := some { rateCeiling := 7, maxPayload := 600, pace := 20, peerReflects := true },
                 trim := { heard.trim with echo := echo, step := step, rUsed := rUsed } }

/-- 0x117 UP at step 19 with echo 95 (6.6). -/
def up : Record := upRec 0x117#12 (some 95) 19 4 40

/-- A station ON AIR with one record, in slot 2. -/
def net (r : Record) : State := { onAir with slots := [none, none, some r] ++ List.replicate 21 none }

/-- A fade held since a moment, with its expiries. -/
def fadedAt (start : Nat) : Fade :=
  { state := .faded, count := 0, start := some start, maxDef := 30, shadow := false, brief := some (start + 1500),
    settle := some (start + 30000) }

/-- An exchange as PROPOSER with its OPEN pending. -/
def exch (refusing : Bool) : Exchange :=
  { role := .proposer, phase := .sendingPages, refusing := refusing, ownNonce := 500, peer := none, nextPage := 0,
    ownCount := 2, expected := 1, lastPage := some 0, maxPayload := some 700, pace := some 30, timer := 10,
    page := some { id := 3, ready := 0, number := 0, bytes := [], attempts := 0 } }

/-- An OFFERING record. -/
def offering : Record := { heard with link := .offering, exch := some (exch false) }

/-- The OFFERING record of an exchange. -/
def inExch (x : Exchange) : Record := { offering with exch := some x }
/-- The exchange as ANSWERER in AWAITING PAGES, its peer's OPEN of nonce 7 and a number of pages taken. -/
def answerer (last expected : Nat) : Exchange :=
  { exch false with role := .answerer, phase := .awaitingPages, peer := some ⟨7, 5, true⟩, lastPage := some last,
                    expected := expected, page := none }
/-- The exchange with its own page of a number pending. -/
def atPage (x : Exchange) (number : Nat) : Exchange :=
  { x with page := some { id := 3, ready := 0, number := number, bytes := [], attempts := 0 } }

/-- A queued host frame for 0x117. -/
def entryT : Entry :=
  { id := 8, origin := 0x0A3#12, dest := 0x117#12, seq := 1, hop := 8, tag := some 5, attempts := 0, entered := 0,
    source := none, payload := List.replicate 500 0, waitDue := true }

/-- The body of a DATA frame with origin, destination and hop limit. -/
def dataT (origin dest : Addr) (hop : Nat) : DataBody :=
  { origin := origin, dest := dest, seq := 7, hop := hop, payload := [1] }

/-- A transaction whose arguments are complete. -/
def tr (code : Byte) (args : List Byte) : Transaction :=
  { Transaction.fresh with phase := .result, code := code, args := args, status := some .ok }

/-- A state with a transaction in progress. -/
def withTr (t : Transaction) (s : State) : State := { s with port := some t, pdo := some 0 }

/-- A state with a transaction of a command whose arguments are complete. -/
def asks (code : Byte) (args : List Byte) (s : State) : State := withTr (tr code args) s

/-- The fade LEAVING, one measurement short of its end. -/
def leavingAt (start : Nat) : Fade := { fadedAt start with state := .leaving, count := 2 }

/-- 0x117 UP and FADED, its step far from the wanted one. -/
def strongFaded : Record := { upRec 0x117#12 (some 117) 2 3 40 with fade := fadedAt 0 }

/-- The state after a command. -/
def after (c : Instr) (s : State) : State :=
  match exec c s with
  | .next t => t
  | .fault _ => s
  | .refused _ => s

/-- A sender that holds a chosen frame. -/
def sender (st : TxState) (c : Chosen) : Sender := { Sender.stopped with state := st, chosen := some c }

/-- A header of a kind from 0x117 to this station. -/
def hdr (kind : FrameKind) (len : Nat) : Header :=
  { kind := kind, full := false, dest := 0x0A3#12, src := 0x117#12, step := 19, cls := 4, len := len, echo := 95 }

/-- A frame of a header under reception, stored, its end at 0. -/
def rxf (h : Header) : RxFrame := { header := h, raw := 40, ends := 0, store := true, own := false }

/-- A state that receives a frame in BODY. -/
def receiving (f : RxFrame) (s : State) : State :=
  { s with rx := { s.rx with state := .body, frame := some f } }

/-- A LOAD SETTINGS argument with address 0x0A3, channel 4, and nothing else given. -/
def loadArgs : List Byte := [0x05, 0, 0, 0, 0, 0, 0xA3, 0x00, 0, 4] ++ List.replicate 50 0

/-! ## Well-formedness: a term each check refuses -/

theorem test_wf_slot_24 : (Instr.aged 24).wellFormed = false ∧ (Instr.aged 23).wellFormed = true := by decide
theorem test_wf_slots_24 : (Instr.silenceLimitReached 24).wellFormed = false ∧
    (Instr.initiationWaitExpiry 24).wellFormed = false ∧ (Instr.exchangeTimeout 24).wellFormed = false ∧
    (Instr.offerHoldoffExpiry 24).wellFormed = false ∧ (Instr.briefExpiry 24).wellFormed = false ∧
    (Instr.settleExpiry 24).wellFormed = false ∧ (Instr.settleTimeout 24).wellFormed = false ∧
    (Instr.trimHoldoffExpiry 24).wellFormed = false ∧ (Instr.peerWindowEnd 24).wellFormed = false := by decide
theorem test_wf_header_of_9_bytes : (Instr.headerReceived (List.replicate 9 0) 0).wellFormed = false := by decide
theorem test_wf_body_of_1101_bytes : (Instr.frameEnd (List.replicate 1101 0)).wellFormed = false := by decide +kernel
theorem test_wf_queue_position_40 : (Instr.waitLimitExpiry 40).wellFormed = false := by decide
theorem test_wf_no_station_address : (Instr.routeAgeExpiry 0x000#12).wellFormed = false ∧
    (Instr.routeAgeExpiry 0xFFE#12).wellFormed = false := by decide

/-! ## Computations, from the manual's tables -/

/-- R1 and the example of 1.7; the class table's ends. -/
theorem test_airtime : airtime 4 508 = 229 ∧ airtime 0 60 = 140 ∧ bodyTime 0 1100 = 1760 ∧ bodyTime 7 1100 = 184 := by
  decide

/-- R170: the check of the nine ASCII digits. -/
theorem test_crc : crc16 [0x31, 0x32, 0x33, 0x34, 0x35, 0x36, 0x37, 0x38, 0x39] = 0x29B1#16 := by
  decide +kernel

/-- Section 4.7's table. -/
theorem test_normalise : normalise 58 31 = 58 ∧ normalise 40 19 = 64 ∧ normalise 12 0 = 74 ∧ normalise 250 10 = 255 ∧
    normalise 0 27 = 8 := by decide

/-- R67's table at the default settings. -/
theorem test_gain : filterGain cfgT 4 = 32 ∧ filterGain cfgT 5 = 46 ∧ filterGain cfgT 12 = 144 ∧
    filterGain cfgT 19 = 242 ∧ filterGain cfgT 20 = 256 := by decide +kernel

/-- Section 4.7: one measurement through its stages. -/
theorem test_measurement : (Record.measured cfgT 0 58 false { up with F := 1120, L := 1136 }).1.F = 1012 ∧
    (Record.measured cfgT 0 58 false { up with F := 1120, L := 1136 }).1.L = 1135 := by decide +kernel

/-- Section 4.7 with T_in at 6: ENTERING, and L stays. -/
theorem test_measurement_entering :
    (Record.measured { cfgT with tIn := 6 } 0 58 false { up with F := 1120, L := 1136 }).1.L = 1136 ∧
    (Record.measured { cfgT with tIn := 6 } 0 58 false { up with F := 1120, L := 1136 }).1.fade.state = .entering := by
  decide +kernel

/-- R152: the sequence from the starting state 1. -/
theorem test_prbs : prbsBytes 2 1#15 = [0x00, 0x06] := by decide

/-- Section 10.9: 1,000 errored bits on 65,000, in WRAP and in SATURATE. -/
theorem test_errored_bits :
    (Counters.reflected .wrap 1000 ⟨9, 5, 2, 65000, 4⟩).1 = ⟨9, 6, 3, 464, 5⟩ ∧
    Counters.reflected .saturate 1000 ⟨9, 5, 2, 65000, 4⟩ = (⟨9, 6, 3, 65535, 4⟩, true) := by decide

/-- R166: rows from slot 6, and from slot 21, wrap in their groups of 8. -/
theorem test_row_slots : (List.range 4).map (rowSlot 6) = [6, 7, 0, 1] ∧
    (List.range 5).map (rowSlot 21) = [21, 22, 23, 16, 17] := by decide

/-- Sections 6.6 and 6.7: the steps that echoes of 96, 40 and 200 at step 31 ask for. -/
theorem test_trim_steps : ({ heard.trim with echo := some 96 }.started cfgT 0).step = 19 ∧
    ({ heard.trim with echo := some 40 }.started cfgT 0).step = 31 ∧
    ({ heard.trim with echo := some 40 }.started cfgT 0).clamped = true ∧
    ({ heard.trim with echo := some 200 }.started cfgT 0).step = 0 := by decide +kernel

/-- Section 7.6: 0x117 at X 100 CLEAR, then FADED with r_used 5, then shadowed. -/
theorem test_costs : (upRec 0x117#12 none 31 6 40).pathCost = 48 ∧
    (Record.costed cfgT { upRec 0x117#12 none 31 5 40 with fade := fadedAt 0 }).pathCost = 67 ∧
    (Record.costed cfgT { upRec 0x117#12 none 31 5 40 with fade := { fadedAt 0 with shadow := true } }).pathCost = 131 := by
  decide +kernel

/-- Section 7.6: two peers, the next hop 0x117 in slot 1, whose record has one of two costs. -/
def twoPeers (cost : Nat) : State :=
  { onAir with slots := [some (upRec 0x041#12 none 31 4 30), some { upRec 0x117#12 none 31 6 40 with pathCost := cost }] ++
                 List.replicate 22 none,
               nextHop := some { slot := 1, addr := 0x117#12 }, advCost := 48 }

/-- Section 7.6: at 48 the margin holds; at 67 the station switches and advertises 45. -/
theorem test_switch_margin : (twoPeers 48).reselect.route = (some { slot := 1, addr := 0x117#12 }, 48) ∧
    (twoPeers 67).reselect.route = (some { slot := 0, addr := 0x041#12 }, 45) := by decide +kernel

/-- R82: PASS, BLIP, no report, SHADOW ENDED at the default settings. -/
theorem test_fade_classes : classify cfgT false 300 50 = some .pass ∧ classify cfgT false 300 30 = some .blip ∧
    classify cfgT false 149 60 = none ∧ classify cfgT false 1500 10 = some .shadowEnded := by decide +kernel

/-! ## The port and the host commands -/

/-- Held in reset or not: the line stops the part, its rise completes the reset (R169). -/
theorem test_reset_line : (after .resetLineAsserted (asks 0x21 [] State.reset)).attnLow = false ∧
    (after .resetLineAsserted (asks 0x21 [] State.reset)).port = none ∧
    (after .resetLineReleased { onAir with inReset := true }).reports.map Report.body = [.started .pin] := by
  decide +kernel
theorem test_power_on : (after .powerOn onAir).reports.map Report.body = [.started .power] ∧
    (after .powerOn onAir).station = .unconfigured := by decide +kernel
theorem test_reset_command : (after .reset (asks 0x05 [] onAir)).reports.map Report.body = [.started .command] ∧
    (after .reset (asks 0x05 [] onAir)).latest = none := by decide +kernel

/-- READ STATION after power-on, byte by byte (R159, R160, R166): the status, then UNCONFIGURED, ACTIVE, no next hop,
cost 4,095, empty queues, 48 free buffers, one report. -/
def shifts (n : Nat) (s : State) : State := (List.range n).foldl (fun s _ => after (.portByteShifted 0) s) s
theorem test_command_byte : (after (.portByteShifted 0x21) (after .transactionBegun State.reset)).pdo = some 0 ∧
    (shifts 1 (after (.portByteShifted 0x21) (after .transactionBegun State.reset))).pdo = some 0x00 := by
  decide +kernel
theorem test_station_status : State.reset.stationStatus =
    [0, 0, 0, 0, 0xFF, 0xFF, 0x0F, 0, 0, 0, 48, 0, 1, 0, 0x00, 0xFF] := by decide +kernel
theorem test_unknown_byte : (after (.portByteShifted 0x77) (after .transactionBegun onAir)).port.bind
    Transaction.status = some .unknownCommand := by decide +kernel
theorem test_unknown_rise : (after .unknownCommand (asks 0x77 [] onAir)).port = none ∧
    (after .unknownCommand (asks 0x77 [] onAir)).latest = none := by decide +kernel

/-- A SEND of 2 bytes to 0x117 with tag 5, its payload still to come: it holds a buffer. -/
def sending2 : Transaction :=
  { tr 0x10 [0x17, 0x01, 5, 0, 2, 0] with phase := .arguments, due := 2, sendHeld := true }
theorem test_send_takes_a_buffer : (after (.portByteShifted 0) (withTr
    { Transaction.fresh with phase := .arguments, code := 0x10, args := [0x17, 0x01, 5, 0, 2], due := 1 }
    onAir)).free = 46 := by decide +kernel
theorem test_send_cut_short : (after .transactionCutShort (withTr sending2 { onAir with free := 46 })).free = 47 := by
  decide +kernel
theorem test_send : (after .send (withTr { sending2 with phase := .result, args := sending2.args ++ [1, 2] }
      onAir)).fwd.map Entry.payload = [[1, 2]] ∧
    (after .send (withTr { sending2 with phase := .result, args := sending2.args ++ [1, 2] } onAir)).seqCounter = 1 := by
  decide +kernel

theorem test_load_settings : (after .loadSettings (asks 0x01 loadArgs State.reset)).settings =
    some { cfgT with channel := 4 } ∧
    (after .loadSettings (asks 0x01 loadArgs State.reset)).latest = some (0x01, .ok) := by decide +kernel
/-- R162: T_in given as 200 is held as 120, and the status is CLAMPED. -/
theorem test_load_settings_clamped :
    settingsHeld ([0x85, 0, 0, 0, 0, 0, 0xA3, 0x00, 0, 4, 0, 0, 0, 0, 200] ++ List.replicate 45 0) =
      (settingsHeld loadArgs).set 7 120 := by decide +kernel
theorem test_read_settings : (after .readSettings (asks 0x02 [] State.reset)).latest = some (0x02, .wrongState) := by
  decide +kernel
theorem test_start : (after .start (asks 0x03 [] ready)).station = .acquiring ∧
    (after .start (asks 0x03 [] ready)).rx.state = .hunt := by decide +kernel
theorem test_stop : (after .stop (asks 0x04 [] { net up with fwd := [entryT], free := 46 })).free = 48 ∧
    (after .stop (asks 0x04 [] { net up with fwd := [entryT], free := 46 })).reports.map Report.body =
      [.drop 1 5 .stopped 1] := by decide +kernel
theorem test_take_frame : (after .takeFrame (withTr { tr 0x11 [] with begun := 1 }
    { onAir with ring := [⟨0x117#12, 3, [1]⟩], free := 46 })).free = 47 := by decide +kernel

/-- Section 11.7: the queue at the rise. Stamps 1 to 4; the host copied DUTY, NEIGHBOUR and half of FADE, and the
NEIGHBOUR report has been overwritten since. -/
def reports117 : List Report :=
  [⟨0, none, .duty .active .doze true, 1⟩, ⟨0x117#12, some 2, .neighbour .lost .silent (some .lost), 9⟩,
   ⟨0x117#12, some 2, .fade .pass .none 300 50 0 0, 3⟩, ⟨0xFFE#12, none, .drop 4 14 .noPath 6, 11⟩]
theorem test_take_reports : (after .takeReports (withTr
      { tr 0x12 [3] with begun := 4, total := 4, out := [0], snaps := [⟨1, 0⟩, ⟨2, 0⟩, ⟨3, 0⟩], marker := true }
      { onAir with reports := reports117, overrun := true })).reports = reports117.drop 1 ∧
    (after .takeReports (withTr
      { tr 0x12 [3] with begun := 4, total := 4, out := [0], snaps := [⟨1, 0⟩, ⟨2, 0⟩, ⟨3, 0⟩], marker := true }
      { onAir with reports := reports117, overrun := true })).overrun = false := by decide +kernel
theorem test_read_neighbours : (after .readNeighbours (asks 0x20 [24, 1] onAir)).latest = some (0x20, .badArgument) ∧
    (after .readNeighbours (asks 0x20 [23, 8] onAir)).latest = some (0x20, .ok) := by decide +kernel
theorem test_read_station : (after .readStation (asks 0x21 [] State.reset)).latest = some (0x21, .ok) := by
  decide +kernel

/-- R74: the baseline is F at once. -/
theorem test_reseed : ((after .reseed (asks 0x30 [2] (net { up with F := 900, L := 1000 }))).rec? 2).map Record.L =
    some 900 := by decide +kernel
theorem test_reseed_refused : (after .reseed (asks 0x30 [3] (net up))).latest = some (0x30, .noSuch) ∧
    (after .reseed (asks 0x30 [2] (net offering))).latest = some (0x30, .wrongState) := by decide +kernel
theorem test_forget : (after .forget (asks 0x31 [2] (net up))).rec? 2 = none ∧
    (after .forget (asks 0x31 [2] (net up))).reports.map Report.body = [.neighbour .removed .forgotten none] := by
  decide +kernel

/-- Section 10.8: CHECK START with slot 2, count 10, length 32, FIXED 0xA5, SATURATE. -/
def startArgs : List Byte := [2, 1, 32, 0, 0, 0xA5, 0]
theorem test_check_start : (after .checkStart (asks 0x40 startArgs (net up))).latest = some (0x40, .ok) ∧
    ((after .checkStart (asks 0x40 startArgs (net up))).check.record.map CheckRecord.next) = some 1 := by decide +kernel

/-- The check record of section 10.8. -/
def checkT : CheckRecord :=
  { slot := 2, peer := 0x117#12, countCode := 1, length := 32, pattern := .fixed, fixed := 0xA5, mode := .saturate,
    base := 1234, next := 2, settled := 1, lastEnd := some 700 }
/-- A station whose check is in a phase. -/
def checking (c : CheckState) : State :=
  { net up with check := { Checker.afterReset with state := c, record := some checkT, live := ⟨3, 2, 1, 3, 0⟩ } }
theorem test_check_stop : (after .checkStop (asks 0x41 [] (checking (.pacing 9)))).reports.map Report.body =
    [.check .stopped 1 1 ⟨3, 2, 1, 3, 0⟩] := by decide +kernel
theorem test_check_freeze :
    (after .checkFreeze (asks 0x42 [1] (checking (.pacing 9)))).check.snapshot.counters = ⟨3, 2, 1, 3, 0⟩ ∧
    (after .checkFreeze (asks 0x42 [1] (checking (.pacing 9)))).check.live = ⟨0, 0, 0, 0, 0⟩ := by decide +kernel
theorem test_check_read : (after .checkRead (asks 0x43 [] onAir)).latest = some (0x43, .ok) := by decide +kernel

/-! ## The air -/

theorem test_busy_in_backoff : (after (.mediumBusyChange true)
    { onAir with tx := { sender .backoff .beacon with count := some 3, slotEnd := some 90 } }).tx.state = .defer ∧
    (after (.mediumBusyChange true)
      { onAir with tx := { sender .backoff .beacon with count := some 3, slotEnd := some 90 } }).tx.count = some 3 := by
  decide +kernel
theorem test_sync_word : (after .syncWordFound onAir).rx.state = .header := by decide +kernel
theorem test_header_abandoned : (after .headerAbandoned { onAir with rx := { onAir.rx with state := .header } }).rx.state =
    .hunt := by decide +kernel

/-- A DATA header of 508 body bytes at class 4 for this station: kept, its end 185 µs on, and stored only in a buffer
held since the sync word (R13); for another, waited out. -/
theorem test_header_received :
    ((after (.headerReceived (hdr .data 508).encode (-3)) { onAir with rx := { onAir.rx with state := .header } }).rx.frame.map
      fun f => (f.raw, f.ends, f.store)) = some (0, 185, true) ∧
    ((after (.headerReceived (hdr .data 508).encode (-3))
      { onAir with rx := { onAir.rx with state := .header, heldAtSync := false } }).rx.frame.map RxFrame.store) =
      some false := by decide +kernel
theorem test_header_overheard :
    (after (.headerReceived { hdr .data 508 with dest := 0x2C0#12 }.encode 7)
      { onAir with rx := { onAir.rx with state := .header } }).rx.state = .discard := by decide +kernel

/-- Section 1.9: DATA from 0x117 for this station with an empty pool is relayed to the ring, and the receiver asks for a
buffer; header-only DATA is answered FULL. -/
def dataBody : List Byte :=
  withCheck (DataBody.encode { origin := 0x2C0#12, dest := 0x0A3#12, seq := 7, hop := 3, payload := [1, 2] })
theorem test_frame_end_data :
    (after (.frameEnd dataBody) (receiving (rxf (hdr .data dataBody.length)) { net up with free := 0 })).rx.request = true ∧
    (after (.frameEnd dataBody) (receiving (rxf (hdr .data dataBody.length)) { net up with free := 0 })).ring.length = 1 := by
  decide +kernel
theorem test_frame_end_header_only :
    (after (.frameEnd dataBody) (receiving { rxf (hdr .data dataBody.length) with store := false } (net up))).tx.ackOwed =
      some { dest := 0x117#12, full := true, due := 16 } := by decide +kernel
theorem test_frame_truncated :
    (after .frameTruncated (receiving { rxf (hdr .data 20) with ends := 5 } onAir)).rx.frame = none := by decide +kernel
/-- R11, R29: an overheard frame's end refreshes its sender. -/
theorem test_discard_end : ((after .discardEnd { receiving (rxf (hdr .data 20)) { net up with now := 9000 } with
    rx := { state := .discard, frame := some (rxf (hdr .data 20)), holds := true, heldAtSync := true, request := false } }).rec? 2).map
      Record.lastHeard = some 9 := by decide +kernel

/-- Section 1.7: the guard gap, a slot, the final check, the transmission's end, the ACK. -/
def slotAt (st : TxState) (n : Nat) (now : Nat) : State :=
  { net up with now := now, fwd := [entryT], free := 46,
                tx := { sender st (.data 8 0x117#12) with count := some n, guard := some 40, slotEnd := some 60 } }
theorem test_guard_gap : (after .guardGapComplete (slotAt .defer 5 40)).tx.slotEnd = some 60 ∧
    (after .guardGapComplete (slotAt .defer 5 40)).tx.state = .backoff := by decide +kernel
theorem test_backoff_slot : (after .backoffSlotEnd (slotAt .backoff 5 60)).tx.count = some 4 := by decide +kernel
theorem test_final_check : (after .backoffSlotEnd (slotAt .backoff 1 320)).tx.ends = some 549 ∧
    (after .backoffSlotEnd (slotAt .backoff 1 320)).rx.state = .off := by decide +kernel
theorem test_transmission_end : (after .transmissionEnd { slotAt .sending 0 549 with
    tx := { sender .sending (.data 8 0x117#12) with ends := some 549 } }).tx.ackWait = some 749 := by decide +kernel
/-- A sender that awaits the ACK of its DATA frame on a given attempt. -/
def awaiting (attempt : Nat) : State :=
  { slotAt .awaitAck 0 800 with tx := { sender .awaitAck (.data 8 0x117#12) with
      addressee := some 0x117#12, attempt := attempt, ackWait := some 749, cw := 64 } }
theorem test_ack_accepted : (after (.frameEnd []) (receiving (rxf (hdr .ack 0)) (awaiting 1))).fwd = [] ∧
    (after (.frameEnd []) (receiving (rxf (hdr .ack 0)) (awaiting 1))).tx.cw = 16 := by decide +kernel
/-- Section 1.8: no ACK doubles the window; the last attempt drops the frame and raises the streak. -/
theorem test_ack_wait_expiry : ((awaiting 3).settleAttempt .noAck).tx.cw = 128 ∧
    (((awaiting 7).settleAttempt .noAck).rec? 2).map Record.failStreak = some 1 := by decide +kernel
theorem test_ack_wait_drop : (after .ackWaitExpiry (awaiting 7)).fwd = [] ∧
    (after .ackWaitExpiry (awaiting 7)).reports.map Report.body = [.drop 1 5 .noAck 1] := by decide +kernel
theorem test_short_gap : (after .shortGapExpiry
    { onAir with tx := { Sender.stopped with ackOwed := some ⟨0x117#12, false, 0⟩ } }).rx.state = .off := by
  decide +kernel
theorem test_ack_end : (after .ackTransmissionEnd
    { onAir with rx := Receiver.stopped, tx := { Sender.stopped with ackAir := some (⟨[], []⟩, 0) } }).rx.state = .hunt := by
  decide +kernel

/-! ## The records' events -/

/-- Section 6.6: the first echo of 96 sets step 19 and r_used 4; the third echo of 95 settles. -/
theorem test_first_echo : (((net (upRec 0x117#12 none 31 0 40)).takeEcho 2 96).rec? 2).map
    (fun r => (r.trim.step, r.trim.state, r.trim.rUsed)) = some (19, .settling, 4) := by decide +kernel
theorem test_third_echo : (((net { up with trim := { up.trim with state := .settling, count := 2, timer := some 9 } }).takeEcho
    2 95).rec? 2).map (fun r => (r.trim.state, r.trim.last)) = some (.idle, some .set) := by decide +kernel

/-- 0x117 in a dip of ENTERING, at step 19 with an echo held; the next measurement ends the dip. -/
def dip (echo : Nat) : Record :=
  { upRec 0x117#12 (some echo) 19 4 40 with fade := { Fade.none with state := .entering, count := 1, maxDef := 30 } }
/-- The fade state and the trim after a frame. -/
def fadeAndTrim (s : State) : Option (FadeState × TrimState × Nat × Nat) :=
  (s.rec? 2).map fun r => (r.fade.state, r.trim.state, r.trim.step, r.trim.count)
/-- R94, a change into CLEAR with the trigger assessed with the new E: at p 19, 95 in place of 80 is within the window. -/
theorem test_into_clear_new_echo :
    fadeAndTrim (after (.frameEnd []) (receiving (rxf (hdr .ack 0)) (net (dip 80)))) = some (.clear, .idle, 19, 0) := by
  decide +kernel
/-- R94 and section 6.6: an E of 80 at the return to CLEAR starts a trim at step 27 with count 0, from a header and from
a beacon's list alike. -/
theorem test_into_clear_starts_from_new_echo :
    fadeAndTrim (after (.frameEnd []) (receiving (rxf { hdr .ack 0 with echo := 80 }) (net (dip 95)))) =
      some (.clear, .settling, 27, 0) ∧
    fadeAndTrim (after (.frameEnd (withCheck (beaconBody (advT 40 0x010#12) [⟨0x0A3#12, 80⟩])))
      (receiving (rxf { hdr .beacon 16 with dest := 0xFFF#12, step := 31 }) (net { dip 95 with F := 640, L := 640 }))) =
      some (.clear, .settling, 27, 0) := by decide +kernel

/-- R49, R61: past the OPEN, a PROPOSER OPEN of the peer nonce is another page; one of a new nonce starts afresh. -/
theorem test_same_nonce_is_no_fresh_open :
    (net (inExch (answerer 1 1))).takePage 2 (.opening .proposer false 7 5 true 2) = (net (inExch (answerer 1 1)), false) ∧
    ((net (inExch (answerer 1 1))).takePage 2 (.opening .proposer false 8 5 true 2)).2 = true := by decide +kernel

/-- R33 at the defaults: 6 intervals of 100 ms. -/
theorem test_silence : (after (.silenceLimitReached 2) (net { up with silence := 600000 })).reports.map Report.body =
    [.neighbour .lost .silent (some .lost)] ∧
    after (.silenceLimitReached 2) (net { up with silence := 599999 }) = net { up with silence := 599999 } := by
  decide +kernel
theorem test_aged : (after (.aged 2) { net heard with now := 120000000 }).rec? 2 = none := by decide +kernel
theorem test_initiation_wait : ((after (.initiationWaitExpiry 2) (net { heard with initWait := some 0 })).rec? 2).map
    Record.link = some .offering := by decide +kernel
theorem test_exchange_timeout : ((after (.exchangeTimeout 2) { net offering with now := 10 }).rec? 2).map
    (fun r => (r.link, r.holdoff)) = some (.heard, some 10000010) := by decide +kernel
theorem test_offer_holdoff : ((after (.offerHoldoffExpiry 2)
    (net { heard with holdoff := some 0 })).rec? 2).map Record.holdoff = some none := by
  decide +kernel
theorem test_brief_expiry : ((after (.briefExpiry 2) { net { up with fade := fadedAt 0 } with now := 1500000 }).rec? 2).map
    (fun r => (r.fade.shadow, r.fade.brief)) = some (true, none) := by decide +kernel
theorem test_settle_expiry : ((after (.settleExpiry 2)
    { net { up with fade := fadedAt 0, F := 700, L := 1100 } with now := 30000000 }).rec? 2).map
      (fun r => (r.L, r.fade.state)) = some (700, .clear) := by decide +kernel
theorem test_settle_timeout : ((after (.settleTimeout 2)
    (net { up with trim := { up.trim with state := .settling, timer := some 0 } })).rec? 2).map
      (fun r => (r.trim.state, r.trim.timer)) = some (.holdoff, some 20000000) := by decide +kernel
/-- Section 6.8: the holdoff expires with E 117 at step 2. -/
theorem test_trim_holdoff : ((after (.trimHoldoffExpiry 2)
    (net { upRec 0x117#12 (some 117) 2 3 40 with
      trim := { (upRec 0x117#12 (some 117) 2 3 40).trim with state := .holdoff, timer := some 0 } })).rec? 2).map
      (fun r => (r.trim.step, r.trim.rUsed)) = some (9, 4) := by decide +kernel
theorem test_peer_window : ((after (.peerWindowEnd 2) (net { up with windowEnd := some 0 })).rec? 2).map Record.windowEnd =
    some none := by decide +kernel

/-! ## The station's events -/

theorem test_wait_limit : (after (.waitLimitExpiry 0)
    { onAir with fwd := [entryT], free := 46, now := 10000000 }).reports.map Report.body = [.drop 1 5 .noPath 1] := by
  decide +kernel
theorem test_route_age : (after (.routeAgeExpiry 0x301#12)
    { net up with paths := [⟨0x301#12, 2, 0⟩, ⟨0x302#12, 2, 0⟩], now := 180000000 }).paths = [⟨0x302#12, 2, 0⟩] := by
  decide +kernel
/-- R132: times are ms, so two paths learned within one ms share theirs, and of a full table the one through the lower
slot goes. -/
theorem test_learned_within_one_ms :
    ((({ onAir with now := 5999 } : State).recordAccepted 7 (dataT 0x301#12 0x0A3#12 3)).recordAccepted 4
        (dataT 0x302#12 0x0A3#12 3)).paths = [⟨0x301#12, 7, 5⟩, ⟨0x302#12, 4, 5⟩] ∧
    oldestPath [⟨0x301#12, 7, 5⟩, ⟨0x302#12, 4, 5⟩, ⟨0x303#12, 1, 6⟩] = some ⟨0x302#12, 4, 5⟩ := by decide +kernel
theorem test_acquisition : (after .acquisitionExpiry
    { ready with station := .acquiring, duty := { ready.duty with acquisition := some 0 } }).station = .onAir ∧
    (after .acquisitionExpiry
      { ready with station := .acquiring, duty := { ready.duty with acquisition := some 0 } }).duty.nextDue = some 100000 := by
  decide +kernel
theorem test_step_down : (after .stepDownExpiry { onAir with duty := { onAir.duty with stepDown := some 0 } }).duty.mode =
    .quiet := by decide +kernel
theorem test_beacon_due : (after .beaconDue
    { onAir with duty := { onAir.duty with mode := .quiet, nextDue := some 0 } }).duty.nextDue = some 400000 := by
  decide +kernel
theorem test_listen_end : (after .listenPeriodEnd
    { onAir with duty := { onAir.duty with mode := .doze, listen := .window 0 } }).rx.state = .off := by decide +kernel
/-- Section 10.8: probe 1 is ready at its pace; probe 2's timeout settles it. -/
theorem test_check_pace : (after .checkPaceExpiry (checking (.pacing 0))).check.record.map CheckRecord.next = some 3 := by
  decide +kernel
theorem test_reflect_timeout : (after .reflectTimeout (checking (.outstanding 1 0))).check.record.map
    CheckRecord.settled = some 2 := by decide +kernel
/-- R154: 3 bits differ. -/
theorem test_reflect : ((checking (.outstanding 1 0)).takeReflect 0x117#12
    ([0, 0, 0, 1, 0xA2] ++ List.replicate 31 0xA5)).check.live = ⟨3, 3, 2, 6, 0⟩ := by decide +kernel

/-! ## Witnesses: for every statement with hypotheses, states and operands that meet them, clause by clause -/

/-- A busy station: 0x117 UP in slot 2 and next hop, a host frame queued, a report pending, a command waiting. -/
def busy : State :=
  { net up with nextHop := some { slot := 2, addr := 0x117#12 }, advCost := 55, pending := [.syncWordFound],
                fwd := [entryT], free := 46, reports := [⟨0, none, .started .power, 0⟩], attnLow := true, serial := 20 }

/-- The one record of a station with one record. -/
theorem only_record {r q : Record} {i : Nat} (h : (net r).rec? i = some q) : q = r := by
  have hs : (net r).rec? i = (([none, none, some r] ++ List.replicate 21 none)[i]?).join := rfl
  rw [hs] at h
  cases hg : ([none, none, some r] ++ List.replicate 21 (none : Option Record))[i]? with
  | none => rw [hg] at h; cases h
  | some o =>
    rw [hg] at h
    have hm := List.mem_of_getElem? hg
    cases o with
    | none => cases h
    | some x =>
      simp at hm
      cases h
      exact hm

/-- A standing request for a buffer. -/
def asking (s : State) : State := { s with rx := { s.rx with holds := false, request := true } }
/-- A transaction in its ARGUMENTS phase. -/
def args (code : Byte) (given : List Byte) (due : Nat) (st : Option Status) : Transaction :=
  { Transaction.fresh with phase := .arguments, code := code, args := given, due := due, status := st }
/-- A SEND whose arguments are complete and that holds its buffer. -/
def sendDone : Transaction := { tr 0x10 [0x17, 0x01, 5, 0, 1, 0, 9] with sendHeld := true }
/-- A station with a REFLECT waiting for a prober. -/
def reflecting (prober : Addr) : State :=
  { net up with tx := { Sender.stopped with reflect := some { id := 4, prober := prober, body := [], ready := 0 } } }
/-- A report for a key, with a DUTY body or a DROP body. -/
def dutyT : Report := ⟨0, none, .duty .active .doze true, 1⟩
def dropT : Report := ⟨0xFFE#12, none, .drop 4 14 .noPath 6, 2⟩
/-- A station of one record that has chosen its frame and stands at a moment of contention. -/
def contends (st : TxState) (n : Nat) (c : Chosen) : State :=
  { slotAt st n 100 with tx := { sender st c with count := some n, guard := if st = .defer then some 40 else none,
                                                  slotEnd := some 60 } }
/-- A table with a record in every slot: one in slot 0, the others UP. -/
def fullTable (r : Record) : State := { onAir with slots := some r :: List.replicate 23 (some up) }
/-- A peer that advertises DOZE, with its window open or not. -/
def dozing (window : Option Nat) : Record :=
  { up with advert := { up.advert with mode := .doze }, windowEnd := window }
/-- The last probe of the counter's range, and the record of a check without a limit. -/
def checkTop : CheckRecord :=
  { checkT with countCode := 5, next := 4294967295, settled := 65535, lastEnd := none }
/-- A station whose check of a record and counters is in a phase. -/
def checkingOn (c : CheckRecord) (st : CheckState) (v : Counters) : State :=
  { net up with check := { Checker.afterReset with state := st, record := some c, live := v } }
/-- A sender whose transmission ends now. -/
def sends (c : Chosen) : State :=
  { net up with now := 549, tx := { sender .sending c with
      ends := some 549, reflect := some { id := 4, prober := 0x117#12, body := [], ready := 0 } } }
/-- A station with one record at a moment. -/
def netAt (r : Record) (now : Nat) : State := { net r with now := now }
/-- A record SETTLING with a number of echoes counted. -/
def settling (count : Nat) : Record := { up with trim := { up.trim with state := .settling, count := count } }
/-- A record with a trim state whose timer ends at 0. -/
def trimming (r : Record) (st : TrimState) : Record := { r with trim := { r.trim with state := st, timer := some 0 } }
/-- A station ON AIR in a duty mode with a step-down, a due time and a listen period at 0. -/
def dutyAt (m : DutyMode) (l : ListenPeriod) : State :=
  { onAir with duty := { onAir.duty with mode := m, stepDown := some 0, nextDue := some 0, listen := l } }
/-- A station whose transaction is in its ARGUMENTS phase. -/
def shifting (code : Byte) (given : List Byte) (due : Nat) (st : Option Status) : State :=
  withTr (args code given due st) onAir
/-- A station that is about to take a DATA body, with a filled ring and queue. -/
def taking (seen : List (Addr × Word16)) (ring fwd free : Nat) : State :=
  { net up with seen := seen, ring := List.replicate ring ⟨1, 0, []⟩, fwd := List.replicate fwd entryT, free := free }
/-- A DATA body with its check. -/
def dataBytes (origin dest : Addr) (hop : Nat) : List Byte := withCheck (dataT origin dest hop).encode
/-- A station with 0x117 in slot 2 and a number of other records UP. -/
def crowd (r : Record) (n : Nat) : State :=
  { net r with slots := [none, none, some r] ++ List.replicate n (some up) ++ List.replicate (21 - n) none }
/-- The headers at the ends of every field's range: a DATA header, and an ACK FULL. -/
def headerTop : Header := { kind := .data, full := false, dest := 0xFFF#12, src := 0xFFD#12, step := 255, cls := 7,
                            len := 1100, echo := 255 }
def headerAck : Header := { kind := .ack, full := true, dest := 0, src := 0x001#12, step := 0, cls := 0, len := 0,
                            echo := 0 }

/-- A complete READ SETTINGS, which is neither a LOAD SETTINGS nor an unknown command, and an unrecognised code. -/
theorem test_meets_EveryCommandAnswersNext_port :
    (asks 0x02 [] onAir).port = some (tr 0x02 []) ∧ (tr 0x02 []).complete = true ∧ (tr 0x02 []).code ≠ 0x01 ∧
      argCount (tr 0x02 []).code ≠ none ∧ (asks 0x02 [] onAir).port ≠ none ∧ onAir.port = none ∧
      argCount 0x99 = none := by decide +kernel

/-- A receiver in HUNT and one OFF; a frame whose end is 1 µs off, a body one byte short of it; a header one byte short;
deadlines of the sender and of an owed ACK 1 µs off. -/
theorem test_meets_EveryCommandAnswersNext_air :
    (State.reset.rx.state ≠ .hunt ∧ onAir.rx.state ≠ .header ∧ (List.replicate 9 (0 : Byte)).length ≠ 10) ∧
      ((receiving { rxf (hdr .data 20) with ends := 1 } onAir).rx.frame = some { rxf (hdr .data 20) with ends := 1 } ∧
        (receiving { rxf (hdr .data 20) with ends := 1 } onAir).rx.state = .body ∧ onAir.now < 1 ∧
        (receiving (rxf (hdr .data 20)) onAir).rx.frame = some (rxf (hdr .data 20)) ∧
        (rxf (hdr .data 20)).ends ≤ onAir.now ∧
        (List.replicate 19 (0 : Byte)).length ≠ (rxf (hdr .data 20)).header.len ∧ onAir.inReset = false) ∧
      (({ onAir with tx := { sender .defer .beacon with guard := some 1 } } : State).tx.guard = some 1 ∧
        ({ onAir with tx := { sender .backoff .beacon with slotEnd := some 1 } } : State).tx.slotEnd = some 1 ∧
        ({ onAir with tx := { sender .sending .beacon with ends := some 1 } } : State).tx.ends = some 1 ∧
        ({ onAir with tx := { sender .awaitAck .beacon with ackWait := some 1 } } : State).tx.ackWait = some 1 ∧
        ({ onAir with tx := { Sender.stopped with ackOwed := some ⟨0x117#12, false, 1⟩ } } : State).tx.ackOwed =
          some ⟨0x117#12, false, 1⟩ ∧
        ({ onAir with tx := { Sender.stopped with ackAir := some (⟨[], []⟩, 1) } } : State).tx.ackAir =
          some (⟨[], []⟩, 1)) := by decide +kernel

/-- A record one ms short of its silence limit and of its age, and with every timer 1 µs or 1 ms off. -/
theorem test_meets_EveryCommandAnswersNext_records :
    ((net { up with silence := 599999 }).rec? 2 = some { up with silence := 599999 } ∧ up.link = .up ∧
        599999 / 1000 < onAir.cfg.kSilence * up.advert.mode.interval) ∧
      ((netAt heard 119999999).rec? 2 = some heard ∧ heard.link = .heard ∧
        (netAt heard 119999999).nowMs - heard.lastHeard < 1000 * onAir.cfg.forget) ∧
      ((netAt { heard with initWait := some 1, holdoff := some 1 } 0).rec? 2 =
        some { heard with initWait := some 1, holdoff := some 1 } ∧ onAir.now < 1 ∧ onAir.nowMs < 1) ∧
      ((netAt offering 9).rec? 2 = some offering ∧ offering.exch = some (exch false) ∧
        (netAt offering 9).now < (exch false).timer) ∧
      ((netAt { up with fade := fadedAt 0 } 1499999).nowMs < 1500 ∧ (fadedAt 0).brief = some 1500 ∧
        (netAt { up with fade := fadedAt 0 } 29999999).nowMs < 30000 ∧ (fadedAt 0).settle = some 30000) ∧
      ({ up.trim with state := .settling, timer := some 1 } : Trim).timer = some 1 ∧
      ({ up.trim with state := .holdoff, timer := some 1 } : Trim).timer = some 1 ∧
      (dozing (some 1)).windowEnd = some 1 := by decide +kernel

/-- The station's deadlines 1 µs or 1 ms off. -/
theorem test_meets_EveryCommandAnswersNext_station :
    (({ netAt up 9999999 with fwd := [entryT] } : State).fwd[0]? = some entryT ∧ entryT.waitDue = true ∧
        (netAt up 9999999).nowMs - entryT.entered < 1000 * onAir.cfg.tWait) ∧
      (({ netAt up 179999999 with paths := [⟨0x117#12, 2, 0⟩] } : State).paths.find?
          (fun q => decide (q.dest = 0x117#12)) = some ⟨0x117#12, 2, 0⟩ ∧
        (netAt up 179999999).nowMs - (⟨0x117#12, 2, 0⟩ : ReturnPath).refresh < 1000 * onAir.cfg.routeAge) ∧
      ({ onAir.duty with acquisition := some 1, stepDown := some 1, nextDue := some 1, listen := .window 1 } : Duty).listen =
        .window 1 ∧ onAir.now < 1 ∧
      (checking (.pacing 1)).check.state = .pacing 1 ∧ (checking (.outstanding 1 1)).check.state = .outstanding 1 1 := by
  decide +kernel

/-- 1 µs before its deadline an expiry changes nothing; at it, it does (R142). -/
theorem test_not_yet_due :
    after .beaconDue { onAir with duty := { onAir.duty with nextDue := some 1 } } =
        { onAir with duty := { onAir.duty with nextDue := some 1 } } ∧
      (after .beaconDue { onAir with now := 1, duty := { onAir.duty with nextDue := some 1 } }).duty.nextDue =
        some 100001 := by decide +kernel

/-- The receiver OFF, and listening. -/
theorem test_meets_IdleStepPassesOneMicrosecond :
    State.reset.pending = [] ∧ State.reset.rx.state = .off ∧ onAir.pending = [] ∧ onAir.rx.state ≠ .off := by
  decide +kernel

/-- Settings held, and none held; 999 µs are 0 ms and 1,000 µs are 1. -/
theorem test_meets_IdleStepPassesOneMicrosecond_settings :
    onAir.settings = some cfgT ∧ onAir.cfg.address = 0x0A3#12 ∧ State.reset.settings = none ∧
      (netAt up 999).nowMs = 0 ∧ (netAt up 1000).nowMs = 1 := by decide +kernel

/-- Held in reset with a SEND in the queue; not held in reset. -/
theorem test_meets_ResetLineHoldsThePartStopped :
    ({ onAir with inReset := true } : State).inReset = true ∧ Instr.send ≠ .powerOn ∧ Instr.send ≠ .resetLineReleased ∧
      (∀ b, Instr.send ≠ .mediumBusyChange b) ∧ onAir.inReset = false := by decide +kernel

/-- A reset under way, none under way, a RESET command. -/
theorem test_meets_ResetsLeaveResetValues :
    ({ onAir with inReset := true } : State).inReset = true ∧ onAir.inReset = false ∧
      (asks 0x05 [] onAir).closing 0x05 (tr 0x05 []) := by
  unfold State.closing
  decide +kernel

/-- One busy state meets the premises of every statement about a step (pool, bounds, queue, line, table). -/
theorem test_meets_StepKeepsInvariants :
    busy.PoolInv ∧ busy.BoundsInv ∧ queueOk busy.reports ∧ busy.AttnInv ∧ busy.TableInv := by
  unfold State.PoolInv State.BoundsInv queueOk State.AttnInv State.TableInv Report.otherKey
  decide +kernel

/-- The busy state's measurements. -/
theorem test_meets_StepKeepsMeasurementsInRange :
    busy.MeasureInv := by
  refine ⟨by unfold Settings.filterOk; decide +kernel, fun i q h => ?_⟩
  obtain rfl : q = up := only_record (i := i) h
  unfold Record.inRange
  decide +kernel

/-- The busy state's route. -/
theorem test_meets_StepKeepsRouteConsistent :
    busy.RouteInv := by
  refine ⟨?_, fun i q h => ?_, fun p h => absurd h List.not_mem_nil, fun h => absurd h (by decide +kernel),
    fun h => absurd h (by decide +kernel)⟩
  · exact ⟨by decide +kernel, up, by decide +kernel, by decide +kernel, by decide +kernel, by decide +kernel⟩
  · obtain rfl : q = up := only_record (i := i) h
    unfold Record.consistent
    decide +kernel

/-- The busy state steps: its waiting SYNC_WORD_FOUND runs. -/
theorem test_meets_StepAnswersNext :
    step busy = .next (after .syncWordFound { busy with pending := [] }) := rfl

/-- READ STATION is none of the rows named, and records itself as the latest command. -/
theorem test_meets_OnlyTheirRowsMoveStationAndSettings :
    exec .readStation (asks 0x21 [] onAir) = .next (after .readStation (asks 0x21 [] onAir)) ∧
      completesReset .readStation = false ∧ Instr.readStation ≠ .loadSettings ∧ Instr.readStation ≠ .start ∧
      Instr.readStation ≠ .stop ∧ Instr.readStation ≠ .acquisitionExpiry ∧ Instr.readStation ≠ .send ∧
      Instr.readStation ≠ .resetLineAsserted ∧ (after .readStation (asks 0x21 [] onAir)).latest ≠ (asks 0x21 [] onAir).latest := ⟨rfl, by decide +kernel⟩

/-- A DATA header with every field at its highest value, and an ACK FULL with the lowest. -/
theorem test_meets_FramesDecodeToWhatWasEncoded_headers :
    ∀ h ∈ [headerTop, headerAck], stationAddress h.src = true ∧ h.step < 256 ∧ h.cls < 8 ∧ h.len ≤ 1100 ∧ h.echo < 256 ∧
      (h.kind = .ack ↔ h.len = 0) ∧ (h.full = true → h.kind = .ack) := by decide +kernel

/-- A DATA payload of 1 and of 1,024 bytes with hop limits 15 and 0; a beacon at window 10, and one at 100 with 12
entries. -/
theorem test_meets_FramesDecodeToWhatWasEncoded_bodies :
    (∀ d ∈ [dataT 0xFFD#12 0xFFE#12 15, { dataT 0x001#12 0x001#12 0 with payload := List.replicate 1024 0 }],
        stationAddress d.origin = true ∧ d.dest ≠ 0 ∧ d.dest ≠ 0xFFF#12 ∧ d.hop ≤ 15 ∧ 1 ≤ d.payload.length ∧
          d.payload.length ≤ 1024) ∧
      (∀ a ∈ [{ advT 4095 0 with window := 10 }, { advT 0 0xFFD#12 with window := 100 }],
        a.cost ≤ 4095 ∧ 10 ≤ a.window ∧ a.window ≤ 100) ∧
      (List.replicate 12 (⟨0xFFD#12, 255⟩ : EchoEntry)).length ≤ 12 ∧
      (∀ e ∈ List.replicate 12 (⟨0xFFD#12, 255⟩ : EchoEntry), e.margin < 256) := by decide +kernel

/-- An OPEN with rate cap 7 and 3 terms, TERM pages 1 and 3 with kind 255 and value 65,535, the last probe number. -/
theorem test_meets_FramesDecodeToWhatWasEncoded_pages :
    (7 ≤ 7 ∧ 3 ≤ 3 ∧ 1 ≤ 1 ∧ 3 ≤ 3 ∧ 255 < 256 ∧ 65535 < 65536 ∧ 4294967295 < 4294967296) ∧
      parseOffer (withCheck (openBytes .answerer true 0xFFFF#16 7 true 3)) =
        some (.opening .answerer true 0xFFFF#16 7 true 3) ∧
      parseOffer (withCheck (termBytes 3 255 65535)) = some (.term 3 255 65535) := by decide +kernel

/-- Fields 5 and 8, the first and the last, and an acceptable argument. -/
theorem test_meets_SettingsAreHeldInRangeAndLoadBack :
    fieldSpecs[0]? = some ⟨2, 1, 0xFFD, 0⟩ ∧ fieldSpecs[5]? = some ⟨1, 2, 64, 20⟩ ∧ fieldSpecs[8]? = some ⟨1, 0, 119, 8⟩ ∧
      fieldSpecs[40]? = some ⟨2, 0, 1000, 0⟩ ∧ settingsAcceptable loadArgs = true := by decide +kernel

/-- No transaction; one cut short without a buffer, with one the receiver wants, with one it does not; an unknown
command. -/
theorem test_meets_SelectEdgesThatTakeNoCommand :
    (onAir.inReset = false ∧ onAir.port = none) ∧
      ((withTr Transaction.fresh onAir).inReset = false ∧ (withTr Transaction.fresh onAir).port = some Transaction.fresh ∧
        Transaction.fresh.complete = false ∧ Transaction.fresh.sendHeld = false) ∧
      ((withTr sending2 (asking onAir)).inReset = false ∧ (withTr sending2 (asking onAir)).port = some sending2 ∧
        sending2.complete = false ∧ sending2.sendHeld = true ∧ (withTr sending2 (asking onAir)).rx.request = true ∧
        (withTr sending2 (asking onAir)).rx.holds = false) ∧
      ((withTr sending2 onAir).inReset = false ∧ (withTr sending2 onAir).port = some sending2 ∧
        (withTr sending2 onAir).rx.request = false) ∧
      ((asks 0x77 [] onAir).inReset = false ∧ (asks 0x77 [] onAir).port = some (tr 0x77 []) ∧
        (tr 0x77 []).complete = true ∧ argCount (tr 0x77 []).code = none) := by decide +kernel

/-- No transaction; a command byte with arguments (1 and 60), without, unrecognised; an argument byte with more to
come, and the last. -/
theorem test_meets_PortBytesMoveTheTransaction_arguments :
    (onAir.inReset = false ∧ onAir.port = none) ∧
      ((withTr Transaction.fresh onAir).inReset = false ∧ (withTr Transaction.fresh onAir).port = some Transaction.fresh ∧
        Transaction.fresh.phase = .command ∧ argCount 0x31 = some (0 + 1) ∧ argCount 0x01 = some (59 + 1) ∧
        argCount 0x21 = some 0 ∧ argCount 0x77 = none) ∧
      ((shifting 0x20 [] 2 none).inReset = false ∧ (shifting 0x20 [] 2 none).port = some (args 0x20 [] 2 none) ∧
        (args 0x20 [] 2 none).phase = .arguments ∧ (args 0x20 [] 2 none).code ≠ 0x10 ∧ 1 < (args 0x20 [] 2 none).due) ∧
      ((shifting 0x20 [23] 1 none).port = some (args 0x20 [23] 1 none) ∧ (args 0x20 [23] 1 none).phase = .arguments ∧
        (args 0x20 [23] 1 none).code ≠ 0x10 ∧ (args 0x20 [23] 1 none).due ≤ 1) := by decide +kernel

/-- A SEND mid-field; its length field complete and taken, refused with a payload, refused without one, at lengths 0
and 1,025; a payload byte, and the last. -/
theorem test_meets_SendIsJudgedAtTheLengthField :
    (∀ t ∈ [args 0x10 [] 6 none, args 0x10 [0x17, 1, 5, 0, 1] 1 none, args 0x10 [] 2 (some .ok), args 0x10 [] 1 (some .full)],
        (withTr t onAir).inReset = false ∧ (withTr t onAir).port = some t ∧ t.phase = .arguments ∧ t.code = 0x10) ∧
      ((args 0x10 [] 6 none).status = none ∧ 1 < (args 0x10 [] 6 none).due) ∧
      ((args 0x10 [0x17, 1, 5, 0, 1] 1 none).status = none ∧ (args 0x10 [0x17, 1, 5, 0, 1] 1 none).due ≤ 1 ∧
        (withTr (args 0x10 [0x17, 1, 5, 0, 1] 1 none) onAir).judgeSend ([0x17, 1, 5, 0, 1] ++ [0]) = .ok) ∧
      ((withTr (args 0x10 [0x17, 1, 5, 0, 1] 1 none) ready).judgeSend ([0x17, 1, 5, 0, 1] ++ [0]) = .wrongState ∧
        Status.wrongState ≠ .ok ∧ 0 < sendExpects ([0x17, 1, 5, 0, 1] ++ [0])) ∧
      ((withTr (args 0x10 [0x17, 1, 5, 0, 0] 1 none) onAir).judgeSend ([0x17, 1, 5, 0, 0] ++ [0]) = .badArgument ∧
        sendExpects ([0x17, 1, 5, 0, 0] ++ [0]) = 0) ∧
      ((withTr (args 0x10 [0x17, 1, 5, 0, 1] 1 none) onAir).judgeSend ([0x17, 1, 5, 0, 1] ++ [4]) = .badArgument ∧
        sendExpects ([0x17, 1, 5, 0, 1] ++ [4]) = 0) ∧
      ((args 0x10 [] 2 (some .ok)).status = some .ok ∧ 1 < (args 0x10 [] 2 (some .ok)).due ∧
        (args 0x10 [] 1 (some .full)).status = some .full ∧ (args 0x10 [] 1 (some .full)).due ≤ 1) := by decide +kernel

/-- The status to go; a byte in hand; an item to form; SPENT. -/
theorem test_meets_PortBytesMoveTheTransaction_result :
    (∀ t ∈ [tr 0x21 [], { tr 0x21 [] with statusOut := true, out := [1] }, { tr 0x21 [] with statusOut := true, total := 1 }],
        (withTr t onAir).inReset = false ∧ (withTr t onAir).port = some t ∧ t.phase = .result) ∧
      (tr 0x21 []).statusOut = false ∧
      ({ tr 0x21 [] with statusOut := true, out := [1] } : Transaction).out = 1 :: [] ∧
      (({ tr 0x21 [] with statusOut := true, total := 1 } : Transaction).out = [] ∧
        ({ tr 0x21 [] with statusOut := true, total := 1 } : Transaction).begun <
          ({ tr 0x21 [] with statusOut := true, total := 1 } : Transaction).total) ∧
      ({ tr 0x21 [] with phase := .spent } : Transaction).phase = .spent := by decide +kernel

/-- A slot of 24, an empty slot, a record UP; a CHECK START with bad arguments, with the check running, idle with an
empty slot, with a record HEARD, with one UP and reflecting. -/
theorem test_meets_PortBytesMoveTheTransaction_judge :
    (23 < byteAt [24] 0 ∧ byteAt [23] 0 ≤ 23 ∧ (net up).rec? 23 = none ∧ (net up).rec? (byteAt [2] 0) = some up) ∧
      checkArgsOk [24, 1, 32, 0, 0, 0, 0] = false ∧
      (checkArgsOk startArgs = true ∧ (checking (.pacing 9)).check.state ≠ .idle ∧ (net up).check.state = .idle ∧
        onAir.rec? (byteAt startArgs 0) = none ∧ (net heard).rec? (byteAt startArgs 0) = some heard ∧
        heard.link ≠ .up ∧ (net up).rec? (byteAt startArgs 0) = some up ∧ up.link = .up ∧
        up.terms = some { rateCeiling := 7, maxPayload := 600, pace := 20, peerReflects := true }) ∧
      ((tr 0x21 []).out = [] ∧ (tr 0x21 []).total ≤ (tr 0x21 []).begun) := by decide +kernel

/-- The default settings fit their fields' widths; settings held, a delivered frame, a report, a report of each kind. -/
theorem test_meets_ResultItemsCarryTheirBytes :
    (∀ (i : Nat) (f : FieldSpec) (v : Nat), fieldSpecs[i]? = some f → cfgT.values[i]? = some v → v < 256 ^ f.width) ∧
      Status.full ≠ .ok ∧ onAir.settings = some cfgT ∧ (taking [] 1 0 5).ring = ⟨1, 0, []⟩ :: [] ∧
      busy.reports[0]? = some ⟨0, none, .started .power, 0⟩ ∧ dutyT.body = .duty .active .doze true ∧
      dropT.body = .drop 4 14 .noPath 6 := by
  refine ⟨fun i f v hf hv => ?_, by decide +kernel⟩
  have hall : ∀ p ∈ fieldSpecs.zip cfgT.values, p.2 < 256 ^ p.1.width := by decide +kernel
  exact hall (f, v) (List.mem_of_getElem? (List.getElem?_zip_eq_some.2 ⟨hf, hv⟩))

/-- Each command at its rise; rows from slot 23 with the last row, from an empty and from a full slot. -/
theorem test_meets_ReadingCommandsChangeNothing :
    (asks 0x02 [] onAir).closing 0x02 (tr 0x02 []) ∧ (asks 0x20 [23, 8] onAir).closing 0x20 (tr 0x20 [23, 8]) ∧
      (asks 0x21 [] onAir).closing 0x21 (tr 0x21 []) ∧ (asks 0x43 [] onAir).closing 0x43 (tr 0x43 []) ∧
      (byteAt [23, 8] 0 ≤ 23 ∧ 7 < 8 ∧ (net up).rec? 22 = none ∧ (net up).rec? 2 = some up) := by
  unfold State.closing
  decide +kernel

/-- Outside UNCONFIGURED; with no address; with address and channel. -/
theorem test_meets_LoadSettingsAndStartPrepareTheStation_load :
    ((asks 0x01 loadArgs ready).closing 0x01 (tr 0x01 loadArgs) ∧ (asks 0x01 loadArgs ready).station ≠ .unconfigured) ∧
      ((asks 0x01 (List.replicate 60 0) State.reset).closing 0x01 (tr 0x01 (List.replicate 60 0)) ∧
        (asks 0x01 (List.replicate 60 0) State.reset).station = .unconfigured ∧
        settingsAcceptable (List.replicate 60 0) = false) ∧
      ((asks 0x01 loadArgs State.reset).closing 0x01 (tr 0x01 loadArgs) ∧
        (asks 0x01 loadArgs State.reset).station = .unconfigured ∧ settingsAcceptable loadArgs = true) := by
  unfold State.closing
  decide +kernel

/-- READY with the transmitter off; another state. -/
theorem test_meets_LoadSettingsAndStartPrepareTheStation_start :
    ((asks 0x03 [] ready).closing 0x03 (tr 0x03 []) ∧ (asks 0x03 [] ready).station = .ready ∧
        (asks 0x03 [] ready).tx.state ≠ .sending ∧ (asks 0x03 [] ready).tx.ackAir = none) ∧
      ((asks 0x03 [] onAir).closing 0x03 (tr 0x03 []) ∧ (asks 0x03 [] onAir).station ≠ .ready) := by
  unfold State.closing
  decide +kernel

/-- UNCONFIGURED, READY, operating; the check running and idle; the queue empty. -/
theorem test_meets_StopEndsEveryBlock :
    ((asks 0x04 [] State.reset).closing 0x04 (tr 0x04 []) ∧ (asks 0x04 [] State.reset).station = .unconfigured) ∧
      ((asks 0x04 [] ready).closing 0x04 (tr 0x04 []) ∧ (asks 0x04 [] ready).station = .ready) ∧
      ((asks 0x04 [] (checking (.pacing 9))).closing 0x04 (tr 0x04 []) ∧
        (asks 0x04 [] (checking (.pacing 9))).operating = true ∧ (asks 0x04 [] (checking (.pacing 9))).check.state ≠ .idle ∧
        (asks 0x04 [] (checking (.pacing 9))).check.record.isSome = true) ∧
      ((asks 0x04 [] onAir).closing 0x04 (tr 0x04 []) ∧ (asks 0x04 [] onAir).operating = true ∧
        (asks 0x04 [] onAir).fwd = [] ∧ (asks 0x04 [] onAir).check.state = .idle) := by
  unfold State.closing
  decide +kernel

/-- A running check with its record, a host frame and a transit frame in the queue. -/
theorem test_meets_StopEndsEveryBlock_reports :
    ((asks 0x04 [] (checking (.pacing 9))).check.state ≠ .idle ∧
        (asks 0x04 [] (checking (.pacing 9))).check.record = some checkT) ∧
      entryT.tag = some 5 ∧ ({ entryT with tag := none, source := some 2 } : Entry).tag = none := by decide +kernel

/-- A refused SEND, and one that holds its buffer. -/
theorem test_meets_SendEntersTheForwardQueue :
    ((asks 0x10 [] onAir).closing 0x10 (tr 0x10 []) ∧ (tr 0x10 []).sendHeld = false ∧ (tr 0x10 []).status = some .ok) ∧
      ((withTr sendDone onAir).closing 0x10 sendDone ∧ sendDone.sendHeld = true) := by
  unfold State.closing
  decide +kernel

/-- An empty ring; an entry not shifted out; one shifted out with and without a standing request. -/
theorem test_meets_TakeCommandsRemoveWhatWasReadWhole_frame :
    ((asks 0x11 [] onAir).closing 0x11 (tr 0x11 []) ∧ (asks 0x11 [] onAir).ring = []) ∧
      ((asks 0x11 [] (taking [] 1 0 5)).closing 0x11 (tr 0x11 []) ∧ (asks 0x11 [] (taking [] 1 0 5)).ring ≠ [] ∧
        (tr 0x11 []).wholeItems = 0) ∧
      (∀ s ∈ [taking [] 12 0 5, asking (taking [] 12 0 0)],
        (withTr { tr 0x11 [] with begun := 1 } s).port = some { tr 0x11 [] with begun := 1 } ∧
        (withTr { tr 0x11 [] with begun := 1 } s).ring = ⟨1, 0, []⟩ :: List.replicate 11 ⟨1, 0, []⟩ ∧
        0 < ({ tr 0x11 [] with begun := 1 } : Transaction).wholeItems) ∧
      (asking (taking [] 12 0 0)).rx.request = true ∧ (asking (taking [] 12 0 0)).rx.holds = false ∧
      (taking [] 12 0 5).rx.request = false := by
  unfold State.closing
  decide +kernel

/-- TAKE REPORTS at its rise. -/
theorem test_meets_TakeCommandsRemoveWhatWasReadWhole_reports :
    (asks 0x12 [3] onAir).closing 0x12 (tr 0x12 [3]) := by
  unfold State.closing
  decide +kernel

/-- An item with bytes to go and one with none; a report of the queue; a DROP report and another. -/
theorem test_meets_TakeCommandsRemoveWhatWasReadWhole_items :
    (tr 0x12 [3]).out = [] ∧ ({ tr 0x12 [3] with out := [0] } : Transaction).out ≠ [] ∧ (tr 0x12 [3]).code = 0x12 ∧
      (tr 0x11 []).code ≠ 0x12 ∧ ({ onAir with reports := [dutyT, dropT] } : State).reports[1]? = some dropT ∧
      dropT.body = .drop 4 14 .noPath 6 ∧ (∀ m g k v, dutyT.body ≠ .drop m g k v) := by
  refine ⟨by decide, by decide, by decide, by decide, by decide, by decide, fun m g k v h => ?_⟩
  exact ReportBody.noConfusion h

/-- Slot 24; an empty slot; OFFERING; UP and CLEAR; UP, FADED with a trim under way. -/
theorem test_meets_ReseedRebuildsTheBaseline :
    ((asks 0x30 [24] (net up)).closing 0x30 (tr 0x30 [24]) ∧ 23 < byteAt (tr 0x30 [24]).args 0) ∧
      ((asks 0x30 [23] (net up)).closing 0x30 (tr 0x30 [23]) ∧ byteAt (tr 0x30 [23]).args 0 ≤ 23 ∧
        (asks 0x30 [23] (net up)).rec? (byteAt [23] 0) = none) ∧
      ((asks 0x30 [2] (net offering)).closing 0x30 (tr 0x30 [2]) ∧
        (asks 0x30 [2] (net offering)).rec? (byteAt [2] 0) = some offering ∧ offering.link = .offering) ∧
      ((asks 0x30 [2] (net up)).closing 0x30 (tr 0x30 [2]) ∧ (asks 0x30 [2] (net up)).rec? (byteAt [2] 0) = some up ∧
        up.link = .up ∧ up.fade.state = .clear ∧ up.fade.shadow = false) ∧
      ((asks 0x30 [2] (net (trimming { up with fade := fadedAt 0 } .holdoff))).rec? (byteAt [2] 0) =
          some (trimming { up with fade := fadedAt 0 } .holdoff) ∧
        (trimming { up with fade := fadedAt 0 } .holdoff).fade.state ≠ .clear ∧
        (trimming { up with fade := fadedAt 0 } .holdoff).trim.state ≠ .idle) := by
  unfold State.closing
  decide +kernel

/-- A FADED record that starts a trim, and one that does not; the route that changes with the record, and stays. -/
theorem test_meets_ReseedRebuildsTheBaseline_route :
    (∀ r ∈ [strongFaded, { up with fade := fadedAt 0 }], (asks 0x30 [2] (net r)).closing 0x30 (tr 0x30 [2]) ∧
        (asks 0x30 [2] (net r)).rec? (byteAt [2] 0) = some r ∧ r.link = .up ∧ r.fade.state ≠ .clear ∧
        r.trim.state = .idle) ∧
      (strongFaded.trim.echo = some 117 ∧ (cfgT.hTrim : Int) < |((117 : Nat) : Int) - 2 * (31 - ((2 : Nat) : Int)) - cfgT.mTgt| ∧
        ¬ (cfgT.hTrim : Int) < |((95 : Nat) : Int) - 2 * (31 - ((19 : Nat) : Int)) - cfgT.mTgt|) ∧
      (after .reseed (asks 0x30 [2] (net strongFaded))).route ≠ (net strongFaded).route ∧
      (after .reseed (asks 0x30 [2] (net heard))).route = (net heard).route := by
  unfold State.closing
  decide +kernel

/-- Slot 24, an empty slot, a record; a record HEARD; one UP with the check on it, on another, idle; a REFLECT for it,
for another, none. -/
theorem test_meets_ForgetRemovesTheRecord :
    ((asks 0x31 [24] (net up)).closing 0x31 (tr 0x31 [24]) ∧ 23 < byteAt [24] 0) ∧
      ((asks 0x31 [23] (net up)).closing 0x31 (tr 0x31 [23]) ∧ byteAt [23] 0 ≤ 23 ∧
        (asks 0x31 [23] (net up)).rec? (byteAt [23] 0) = none) ∧
      ((asks 0x31 [2] (net up)).closing 0x31 (tr 0x31 [2]) ∧ (asks 0x31 [2] (net up)).rec? (byteAt [2] 0) = some up) ∧
      ((net heard).rec? 2 = some heard ∧ heard.link ≠ .up) ∧
      ((checking (.pacing 9)).rec? 2 = some up ∧ up.link = .up ∧ (checking (.pacing 9)).check.record = some checkT ∧
        checkT.slot = 2 ∧ (checking (.pacing 9)).check.state ≠ .idle ∧ checkT.slot ≠ 3) ∧
      ((reflecting 0x117#12).rec? 2 = some up ∧ (reflecting 0x117#12).check.state = .idle ∧
        (reflecting 0x117#12).tx.reflect = some ⟨4, 0x117#12, [], 0⟩ ∧ (⟨4, 0x117#12, [], 0⟩ : ReflectBuffer).prober = up.peer ∧
        (reflecting 0x117#12).tx.state ≠ .sending) ∧
      ((reflecting 0x118#12).tx.reflect = some ⟨4, 0x118#12, [], 0⟩ ∧
        (⟨4, 0x118#12, [], 0⟩ : ReflectBuffer).prober ≠ up.peer ∧ (net up).tx.reflect = none) := by
  unfold State.closing
  decide +kernel

/-- Bad arguments; busy; an empty slot; a record without terms; a payload of 601 bytes on a link of 600; one of 600. -/
theorem test_meets_CheckStartMakesTheFirstProbeReady :
    ((asks 0x40 [24, 1, 32, 0, 0, 0, 0] (net up)).closing 0x40 (tr 0x40 [24, 1, 32, 0, 0, 0, 0]) ∧
        checkArgsOk [24, 1, 32, 0, 0, 0, 0] = false) ∧
      ((asks 0x40 startArgs (checking (.pacing 9))).closing 0x40 (tr 0x40 startArgs) ∧ checkArgsOk startArgs = true ∧
        (asks 0x40 startArgs (checking (.pacing 9))).check.state ≠ .idle) ∧
      ((asks 0x40 startArgs onAir).closing 0x40 (tr 0x40 startArgs) ∧ (asks 0x40 startArgs onAir).check.state = .idle ∧
        (asks 0x40 startArgs onAir).rec? (byteAt startArgs 0) = none) ∧
      ((asks 0x40 startArgs (net heard)).closing 0x40 (tr 0x40 startArgs) ∧
        (asks 0x40 startArgs (net heard)).rec? (byteAt startArgs 0) = some heard ∧ heard.terms = none) ∧
      ((asks 0x40 [2, 1, 0x59, 2, 0, 0, 0] (net up)).closing 0x40 (tr 0x40 [2, 1, 0x59, 2, 0, 0, 0]) ∧
        checkArgsOk [2, 1, 0x59, 2, 0, 0, 0] = true ∧ (net up).check.state = .idle ∧
        (asks 0x40 [2, 1, 0x59, 2, 0, 0, 0] (net up)).rec? 2 = some up ∧ up.link = .up ∧
        up.terms = some { rateCeiling := 7, maxPayload := 600, pace := 20, peerReflects := true } ∧
        600 < arg16 [2, 1, 0x59, 2, 0, 0, 0] 2) ∧
      ((asks 0x40 [2, 1, 0x58, 2, 0, 0, 0] (net up)).closing 0x40 (tr 0x40 [2, 1, 0x58, 2, 0, 0, 0]) ∧
        checkArgsOk [2, 1, 0x58, 2, 0, 0, 0] = true ∧ arg16 [2, 1, 0x58, 2, 0, 0, 0] 2 ≤ 600) := by
  unfold State.closing
  decide +kernel

/-- CHECK STOP while IDLE and while RUNNING; FREEZE with 2, with 1, with 0. -/
theorem test_meets_CheckStopAndFreeze :
    ((asks 0x41 [] onAir).closing 0x41 (tr 0x41 []) ∧ onAir.check.state = .idle) ∧
      ((asks 0x41 [] (checking (.pacing 9))).closing 0x41 (tr 0x41 []) ∧ (checking (.pacing 9)).check.state ≠ .idle ∧
        (checking (.pacing 9)).check.record = some checkT) ∧
      ((asks 0x42 [2] onAir).closing 0x42 (tr 0x42 [2]) ∧ 1 < byteAt [2] 0 ∧ byteAt [1] 0 ≤ 1 ∧ byteAt [0] 0 ≤ 1) := by
  unfold State.closing
  decide +kernel

/-- A freeze with no check record, and with one. -/
theorem test_meets_CheckStopAndFreeze_record :
    (asks 0x42 [0] onAir).closing 0x42 (tr 0x42 [0]) ∧ onAir.check.record = none ∧
      (asks 0x42 [0] (checking (.pacing 9))).closing 0x42 (tr 0x42 [0]) ∧
      (checking (.pacing 9)).check.record = some checkT := by
  unfold State.closing
  decide +kernel

/-- HUNT; HEADER; BODY before the stated end. -/
theorem test_meets_ReceiverFollowsTheCarrier :
    onAir.inReset = false ∧ onAir.rx.state = .hunt ∧ onAir.rx.state ≠ .header ∧ onAir.rx.state ≠ .body ∧
      ({ onAir with rx := { onAir.rx with state := .header } } : State).rx.state = .header ∧
      ((receiving { rxf (hdr .data 20) with ends := 1 } onAir).rx.state = .body ∧
        (receiving { rxf (hdr .data 20) with ends := 1 } onAir).rx.frame = some { rxf (hdr .data 20) with ends := 1 } ∧
        onAir.now < 1) := by decide +kernel

/-- Ten bytes of zeros are rejected; an encoded header is read. -/
theorem test_meets_HeaderIsRejectedKeptOrDiscarded :
    ({ onAir with rx := { onAir.rx with state := .header } } : State).rx.state = .header ∧
      (List.replicate 10 (0 : Byte)).length = 10 ∧ Header.parse (List.replicate 10 0) = none ∧
      (hdr .data 1100).encode.length = 10 ∧ Header.parse (hdr .data 1100).encode = some (hdr .data 1100) := by
  decide +kernel

/-- A kept OFFER, a kept ACK, a discarded frame, and one of this station's own. -/
theorem test_meets_FrameEndsHandOnInOrder :
    (∀ h ∈ [hdr .offer 6, hdr .ack 0], (receiving (rxf h) onAir).inReset = false ∧
        (receiving (rxf h) onAir).rx.frame = some (rxf h) ∧ (rxf h).ends ≤ (receiving (rxf h) onAir).now ∧
        (receiving (rxf h) onAir).rx.state = .body ∧ (List.replicate h.len (0 : Byte)).length = (rxf h).header.len) ∧
      (rxf (hdr .offer 6)).header.kind = .offer ∧
      ¬((rxf (hdr .ack 0)).header.kind = .data ∨ (rxf (hdr .ack 0)).header.kind = .offer ∨
        (rxf (hdr .ack 0)).header.kind = .probe ∨ (rxf (hdr .ack 0)).header.kind = .reflect) ∧
      (∀ f ∈ [rxf (hdr .data 6), { rxf (hdr .data 6) with own := true }],
        ({ onAir with rx := { onAir.rx with state := .discard, frame := some f } } : State).rx.state = .discard ∧
        ({ onAir with rx := { onAir.rx with state := .discard, frame := some f } } : State).rx.frame = some f ∧
        f.ends ≤ onAir.now) ∧
      (rxf (hdr .data 6)).own = false ∧ ({ rxf (hdr .data 6) with own := true } : RxFrame).own = true := by
  decide +kernel

/-- A body that fails its check, and one not stored, of each kind; a known sender ACTIVE, and one that dozes. -/
theorem test_meets_FrameEndsHandOnInOrder_unreadable :
    checkPasses [1, 2, 3] = false ∧ (rxf (hdr .data 3)).store = true ∧
      ({ rxf (hdr .data 3) with store := false } : RxFrame).store = false ∧ (hdr .offer 3).kind = .offer ∧
      (hdr .data 3).kind = .data ∧ (hdr .data 3).dest ≠ 0xFFE#12 ∧ (hdr .data 3).dest ≠ 0xFFF#12 ∧
      ({ hdr .data 3 with dest := 0xFFE#12 } : Header).dest = 0xFFE#12 ∧ (hdr .beacon 3).kind = .beacon ∧
      (net up).rec? 2 = some up ∧ up.advert.mode ≠ .doze ∧
      ({ up with advert := { up.advert with mode := .doze } } : Record).advert.mode = .doze := by decide +kernel

/-- A stored OFFER of 0x118 at a raw margin and step 31. -/
def from118 (raw : Nat) : RxFrame := { rxf { hdr .offer 6 with src := 0x118#12, step := 31 } with raw := raw }

/-- A known sender UP and LOST; an unknown one at the floor and one below it, with an empty slot, with every record UP,
and with one HEARD to evict; an observation of no record, and of one in a header to this station and to another. -/
theorem test_meets_HearingAPeerKeepsTheTable :
    ((net up).findPeer (hdr .data 6).src = some 2 ∧ (net up).rec? 2 = some up ∧ up.link ≠ .lost) ∧
      ((net { up with link := .lost }).findPeer (hdr .data 6).src = some 2 ∧
        (net { up with link := .lost }).rec? 2 = some { up with link := .lost }) ∧
      ((net up).findPeer 0x118#12 = none ∧
        (net up).cfg.floor ≤ normalise (from118 cfgT.floor).raw (from118 cfgT.floor).header.step ∧
        normalise (from118 (cfgT.floor - 1)).raw (from118 (cfgT.floor - 1)).header.step < (net up).cfg.floor) ∧
      (0 < (net up).slots.length ∧ (net up).rec? 0 = none) ∧
      ((fullTable up).findPeer 0x118#12 = none ∧ (fullTable up).slots.all Option.isSome = true ∧
        (fullTable up).slots.all (fun o => o.all fun q => decide (q.link = .up)) = true) ∧
      ((fullTable heard).findPeer 0x118#12 = none ∧ (fullTable heard).slots.all Option.isSome = true ∧
        (fullTable heard).rec? 0 = some heard ∧ heard.link = .heard ∧
        ((fullTable heard).slots.drop 1).all (fun o => o.all fun q => decide (q.link = .up)) = true) ∧
      ((net up).hear (from118 cfgT.floor) none).2 = none ∧
      ((net up).hear (rxf (hdr .data 6)) none).2 = some (2, false) ∧ (hdr .data 6).dest = (net up).cfg.address ∧
      (rxf (hdr .data 6)).header.kind ≠ .beacon ∧
      ({ hdr .data 6 with dest := 0x2C0#12 } : Header).dest ≠ (net up).cfg.address := by decide +kernel

/-- A good OFFER, a good beacon and a beacon body that is malformed. -/
theorem test_meets_HearingAPeerKeepsTheTable_welcome :
    ((rxf (hdr .offer 9)).store = true ∧ checkPasses (withCheck (termBytes 1 1 600)) = true) ∧
      ((rxf (hdr .beacon 12)).store = true ∧
        checkPasses (withCheck (beaconBody { advT 40 0x010#12 with window := 10 } [])) = true ∧
        parseBeacon (withCheck (beaconBody { advT 40 0x010#12 with window := 10 } [])) =
          some ({ advT 40 0x010#12 with window := 10 }, [])) ∧
      (checkPasses (withCheck [1]) = true ∧ parseBeacon (withCheck [1]) = none) ∧ checkPasses [1, 2, 3] = false := by
  decide +kernel

/-- A peer ACTIVE, dozing with its window closed and open; HEARD, UP with streaks 0, 1 and 2; listed twice, and not. -/
theorem test_meets_BeaconBodiesAreTakenApart :
    (∀ r ∈ [up, dozing none, dozing (some 9), heard, { up with notEchoed := 1 }, { up with notEchoed := 2 }],
        (net r).rec? 2 = some r) ∧
      (up.advert.mode ≠ .doze ∧ (dozing none).advert.mode = .doze ∧ (dozing none).windowEnd = none ∧
        (dozing (some 9)).windowEnd.isSome = true ∧ (advT 40 0).mode ≠ .doze) ∧
      (heard.link ≠ .up ∧ up.link = .up ∧ ({ up with notEchoed := 1 } : Record).notEchoed + 1 < 3 ∧
        3 ≤ ({ up with notEchoed := 2 } : Record).notEchoed + 1) ∧
      (∀ e ∈ [(⟨0x118#12, 9⟩ : EchoEntry)], e.peer ≠ (net up).cfg.address) ∧
      ((rxf (hdr .beacon 16)).header.kind = .beacon ∧ (rxf (hdr .beacon 16)).store = true ∧
        (∀ e ∈ [(⟨0x118#12, 9⟩ : EchoEntry), ⟨0x0A3#12, 70⟩],
          checkPasses (withCheck (beaconBody (advT 40 0x010#12) [e])) = true ∧
          parseBeacon (withCheck (beaconBody (advT 40 0x010#12) [e])) = some (advT 40 0x010#12, [e])) ∧
        checkPasses [1, 2, 3] = false ∧ parseBeacon (withCheck [1]) = none) ∧
      ([⟨0x118#12, 9⟩, ⟨0x0A3#12, 70⟩, ⟨0x0A3#12, 80⟩] = [⟨0x118#12, 9⟩] ++ (⟨0x0A3#12, 70⟩ : EchoEntry) :: [⟨0x0A3#12, 80⟩] ∧
        (⟨0x0A3#12, 70⟩ : EchoEntry).peer = (net up).cfg.address ∧
        ∀ q ∈ [(⟨0x118#12, 9⟩ : EchoEntry)], q.peer ≠ (net up).cfg.address) := by decide +kernel

/-- A sender HEARD; a malformed body; an own origin; a pair seen; for here with the ring at 12 and at 11; hop limit 1;
for another with 40 and with 39 places taken; a free buffer and none. -/
theorem test_meets_RelayUnitTakesData :
    ((net heard).rec? 2 = some heard ∧ heard.link ≠ .up ∧ (net heard).rx.holds = true ∧ parseData [] = none) ∧
      (∀ s ∈ [taking [] 11 39 0, taking [] 12 40 5, taking [(0x2C0#12, 7)] 0 0 5],
        s.rec? 2 = some up ∧ s.seen.length ≤ 32 ∧ s.rx.holds = true ∧ up.link = .up) ∧
      (∀ d ∈ [dataT 0x0A3#12 0x2C0#12 3, dataT 0x2C0#12 0x0A3#12 3, dataT 0x2C0#12 0x301#12 1, dataT 0x2C0#12 0x301#12 2],
        parseData (dataBytes d.origin d.dest d.hop) = some d) ∧
      (dataT 0x0A3#12 0x2C0#12 3).origin = (taking [] 11 39 0).cfg.address ∧
      (0x2C0#12, 7) ∈ (taking [(0x2C0#12, 7)] 0 0 5).seen ∧
      ((0x2C0#12, 7) ∉ (taking [] 11 39 0).seen ∧ (dataT 0x2C0#12 0x0A3#12 3).dest = (taking [] 11 39 0).cfg.address ∧
        (taking [] 11 39 0).ring.length < 12 ∧ 12 ≤ (taking [] 12 40 5).ring.length) ∧
      ((dataT 0x2C0#12 0x301#12 1).dest ≠ (taking [] 11 39 0).cfg.address ∧ (dataT 0x2C0#12 0x301#12 1).dest ≠ 0xFFE#12 ∧
        (dataT 0x2C0#12 0x301#12 1).hop ≤ 1 ∧ 1 < (dataT 0x2C0#12 0x301#12 2).hop ∧
        (taking [] 11 39 0).fwd.length + one (taking [] 11 39 0).portHolds < 40 ∧
        40 ≤ (taking [] 12 40 5).fwd.length + one (taking [] 12 40 5).portHolds ∧ (taking [] 11 39 0).free = 0 ∧
        0 < (taking [(0x2C0#12, 7)] 0 0 5).free) := by decide +kernel

/-- A pair that repeats, one that joins, one that joins a full list; a destination known, new, and new to a full
table. -/
theorem test_meets_RelayUnitTakesData_learning :
    ((1#12, 1#16) ∈ [(1#12, 1#16)] ∧ (2#12, 1#16) ∉ [(1#12, 1#16)] ∧
        (List.replicate 32 (1#12, 1#16)).length = 32 ∧ (2#12, 1#16) ∉ List.replicate 32 (1#12, 1#16)) ∧
      ((∃ p ∈ [(⟨0x301#12, 2, 0⟩ : ReturnPath)], p.dest = 0x301#12) ∧
        (∀ p ∈ [(⟨0x301#12, 2, 0⟩ : ReturnPath)], p.dest ≠ 0x302#12) ∧
        (∀ p ∈ List.replicate 32 (⟨0x301#12, 2, 0⟩ : ReturnPath), p.dest ≠ 0x302#12) ∧
        32 ≤ (List.replicate 32 (⟨0x301#12, 2, 0⟩ : ReturnPath)).length) := by decide +kernel

/-- A stored DATA frame with a good body, taken with no ACK, with ACCEPTED and with FULL; sent here, to 0xFFE and 0xFFF. -/
theorem test_meets_RelayUnitTakesData_body :
    ((hdr .data 14).kind = .data ∧ (rxf (hdr .data 14)).store = true ∧
        checkPasses (dataBytes 0x2C0#12 0x0A3#12 3) = true) ∧
      ((net heard).takeData 2 (dataBytes 0x2C0#12 0x0A3#12 3)).2 = none ∧
      ((taking [] 11 0 5).takeData 2 (dataBytes 0x2C0#12 0x0A3#12 3)).2 = some false ∧
      ((taking [] 12 0 5).takeData 2 (dataBytes 0x2C0#12 0x0A3#12 3)).2 = some true ∧
      ((hdr .data 14).dest ≠ 0xFFE#12 ∧ (hdr .data 14).dest ≠ 0xFFF#12 ∧
        ({ hdr .data 14 with dest := 0xFFE#12 } : Header).dest = 0xFFE#12 ∧
        ({ hdr .data 14 with dest := 0xFFF#12 } : Header).dest = 0xFFF#12) ∧ (hdr .ack 0).kind = .ack := by
  decide +kernel

/-- Work to choose from, and none; a due beacon; a page and a REFLECT of one ready time, the page ranked first; frames
of the queue waiting, past T_wait, too long and to send; a destination UP, on a return path, and by the next hop. -/
theorem test_meets_SenderChoosesInOrder :
    (onAir.tx.state = .idle ∧ onAir.station = .onAir ∧ onAir.tx.ackAir = none) ∧
      ({ onAir with tx := { onAir.tx with beaconDue := true } } : State).tx.beaconDue = true ∧
      ({ net offering with tx := { (reflecting 0x117#12).tx with beaconDue := false } } : State).controlFrames =
        [⟨0, 2, .page 2 3⟩] ∧
      (reflecting 0x117#12).controlFrames = [⟨0, 25, .reflect 4⟩] ∧
      ({ checking (.pending 1 6 0) with tx := (reflecting 0x117#12).tx } : State).controlFrames =
        [⟨0, 24, .probe 6⟩, ⟨0, 25, .reflect 4⟩] ∧
      ((net up).tx.beaconDue = false ∧ (net up).controlFrames = [] ∧
        (net up).examine { entryT with dest := 0x333#12 } = .waiting ∧
        (net up).pastWait { entryT with dest := 0x333#12 } = false ∧
        (netAt up 10000000).pastWait { entryT with dest := 0x333#12 } = true ∧
        (net up).examine { entryT with payload := List.replicate 601 0 } = .tooLong ∧
        (net up).examine entryT = .send 0x117#12) ∧
      (([{ entryT with id := 7, dest := 0x333#12 }, entryT] : List Entry).map Entry.id).Nodup ∧
      ((net up).resolve 0x117#12 = some 2 ∧ (net up).rec? 2 = some up ∧ up.terms.map Terms.maxPayload = some 600 ∧
        (net (dozing none)).examine entryT = .waiting ∧ (net (dozing (some 9))).examine entryT = .send 0x117#12) ∧
      ((net up).findPeer 0x333#12 = none ∧
        ({ net up with paths := [⟨0x333#12, 2, 0⟩] } : State).paths.find? (fun q => decide (q.dest = 0x333#12)) =
          some ⟨0x333#12, 2, 0⟩ ∧ (net up).paths = [] ∧ (net up).cfg.gateway = false ∧
        ({ net up with settings := some { cfgT with gateway := true } } : State).cfg.gateway = true) := by
  decide +kernel

/-- The guard gap complete and a slot at its end, with counts above and at the last, the check passing and failing. -/
theorem test_meets_ContentionCountsDownToTheFinalCheck :
    ((contends .defer 1 (.data 8 0x117#12)).inReset = false ∧
        (contends .defer 1 (.data 8 0x117#12)).tx.chosen = some (.data 8 0x117#12) ∧
        (contends .defer 1 (.data 8 0x117#12)).tx.state = .defer ∧
        (contends .defer 1 (.data 8 0x117#12)).tx.guard = some 40 ∧ 40 ≤ (contends .defer 1 (.data 8 0x117#12)).now ∧
        (contends .defer 1 (.data 8 0x117#12)).tx.count = some (0 + 1)) ∧
      ((contends .defer 0 (.data 8 0x117#12)).tx.count = some 0 ∧
        ((contends .defer 0 (.data 8 0x117#12)).launch (.data 8 0x117#12)).isSome = true ∧
        (contends .defer 0 (.data 9 0x117#12)).launch (.data 9 0x117#12) = none) ∧
      ((contends .backoff 2 (.data 8 0x117#12)).tx.state = .backoff ∧
        (contends .backoff 2 (.data 8 0x117#12)).tx.slotEnd = some 60 ∧
        (contends .backoff 2 (.data 8 0x117#12)).tx.count = some (0 + 2)) ∧
      ((contends .backoff 1 (.data 8 0x117#12)).tx.guard = none ∧
        (contends .backoff 1 (.data 8 0x117#12)).tx.count = some 1 ∧
        ((contends .backoff 1 (.data 8 0x117#12)).launch (.data 8 0x117#12)).isSome = true ∧
        (contends .backoff 1 (.data 9 0x117#12)).launch (.data 9 0x117#12) = none) := by decide +kernel

/-- The record whose page goes on air. -/
theorem test_meets_ContentionCountsDownToTheFinalCheck_attempts :
    (net offering).rec? 2 = some offering ∧ offering.exch = some (exch false) ∧
      (exch false).page = some ⟨3, 0, 0, [], 0⟩ := by decide +kernel

/-- A DATA frame, an OFFER page, a probe and a REFLECT that pass the check, and one of each kind that does not. -/
theorem test_meets_FinalCheckFillsTheFrame :
    ((contends .backoff 1 (.data 8 0x117#12)).entry? 8 = some entryT ∧
      (contends .backoff 1 (.data 8 0x117#12)).resolve entryT.dest = some 2 ∧
      (contends .backoff 1 (.data 8 0x117#12)).rec? 2 = some up ∧ up.peer = 0x117#12 ∧ entryT.payload.length ≤ 600 ∧
      up.advert.mode ≠ .doze) ∧
      (((net offering).launch (.page 2 3)).isSome = true ∧ (net offering).launch (.page 2 4) = none) ∧
      (((checking (.pending 1 6 0)).launch (.probe 6)).isSome = true ∧
        (checking (.pending 1 6 0)).launch (.probe 7) = none) ∧
      (((reflecting 0x117#12).launch (.reflect 4)).isSome = true ∧ (reflecting 0x117#12).launch (.reflect 5) = none ∧
        (reflecting 0x118#12).launch (.reflect 4) = none) := by decide +kernel

/-- A transmission at its end, of each kind. -/
theorem test_meets_TransmissionEndsByKind :
    (∀ c ∈ [Chosen.beacon, .probe 4, .reflect 4, .data 8 0x117#12, .page 2 3],
        (sends c).inReset = false ∧ (sends c).tx.state = .sending ∧ (sends c).tx.ends = some 549 ∧ 549 ≤ (sends c).now ∧
        (sends c).tx.chosen = some c) ∧
      ((sends (.reflect 4)).tx.reflect = some ⟨4, 0x117#12, [], 0⟩ ∧ (⟨4, 0x117#12, [], 0⟩ : ReflectBuffer).id = 4) := by
  decide +kernel

/-- Not ON AIR; ACTIVE; DOZE, before its last survey and at it. -/
theorem test_meets_DutyTimersMoveTheStation_activity :
    ready.station ≠ .onAir ∧ (onAir.station = .onAir ∧ onAir.duty.mode = .active) ∧
      ((dutyAt .doze .none).station = .onAir ∧ (dutyAt .doze .none).duty.mode ≠ .active) ∧ onAir.duty.mode ≠ .doze ∧
      ((dutyAt .doze .none).duty.mode = .doze ∧ (dutyAt .doze .none).duty.survey + 1 < (dutyAt .doze .none).cfg.nSurvey) ∧
      (dutyAt .doze .none).cfg.nSurvey ≤
        ({ dutyAt .doze .none with duty := { (dutyAt .doze .none).duty with survey := 7 } } : State).duty.survey + 1 := by
  decide +kernel

/-- An ACK owed with the transmitter off; an ACK on air at its end. -/
theorem test_meets_OwedAckGoesOutAfterTheShortGap :
    (({ onAir with tx := { Sender.stopped with ackOwed := some ⟨0x117#12, false, 0⟩ } } : State).inReset = false ∧
        ({ onAir with tx := { Sender.stopped with ackOwed := some ⟨0x117#12, false, 0⟩ } } : State).tx.ackOwed =
          some ⟨0x117#12, false, 0⟩ ∧ (⟨0x117#12, false, 0⟩ : AckOwed).due ≤ onAir.now ∧
        ({ onAir with tx := { Sender.stopped with ackOwed := some ⟨0x117#12, false, 0⟩ } } : State).tx.state ≠ .sending ∧
        ({ onAir with tx := { Sender.stopped with ackOwed := some ⟨0x117#12, false, 0⟩ } } : State).tx.ackAir = none) ∧
      (({ onAir with tx := { Sender.stopped with ackAir := some (⟨[], []⟩, 0) } } : State).inReset = false ∧
        ({ onAir with tx := { Sender.stopped with ackAir := some (⟨[], []⟩, 0) } } : State).tx.ackAir = some (⟨[], []⟩, 0) ∧
        0 ≤ onAir.now) := by decide +kernel

/-- An ACK owed to a station without a record, to an UP one, and to one HEARD. -/
theorem test_meets_OwedAckGoesOutAfterTheShortGap_header :
    onAir.findPeer (⟨0x117#12, false, 0⟩ : AckOwed).dest = none ∧
      ((net up).findPeer 0x117#12 = some 2 ∧ (net up).rec? 2 = some up ∧ up.link = .up) ∧
      ((net heard).findPeer 0x117#12 = some 2 ∧ (net heard).rec? 2 = some heard ∧ heard.link ≠ .up) := by decide +kernel

/-- A wait at its end on attempt 6 and on the last; an ACK awaited, ACCEPTED and FULL, and one that is not. -/
theorem test_meets_AttemptsAreSettledOnce :
    ((awaiting 6).inReset = false ∧ (awaiting 6).tx.state = .awaitAck ∧ (awaiting 6).tx.ackWait = some 749 ∧
        749 ≤ (awaiting 6).now ∧ (awaiting 6).tx.attempt ≤ (awaiting 6).cfg.rMax) ∧
      ((awaiting 7).inReset = false ∧ (awaiting 7).tx.state = .awaitAck ∧ (awaiting 7).tx.ackWait = some 749 ∧
        749 ≤ (awaiting 7).now ∧ (awaiting 7).cfg.rMax < (awaiting 7).tx.attempt ∧
        (awaiting 7).tx.chosen = some (.data 8 0x117#12) ∧ (awaiting 7).tx.addressee = some 0x117#12 ∧
        (awaiting 7).entry? 8 = some entryT ∧ (awaiting 7).findPeer 0x117#12 = some 2 ∧ (awaiting 7).rec? 2 = some up ∧
        up.link = .up ∧ up.failStreak + 1 < 3) ∧
      ((awaiting 6).rec? 2 = some up ∧ (awaiting 6).tx.addressee = some (hdr .ack 0).src ∧
        (hdr .ack 0).dest = (awaiting 6).cfg.address ∧ (hdr .ack 0).full = false ∧
        (awaiting 6).tx.chosen = some (.data 8 (hdr .ack 0).src) ∧ (awaiting 6).entry? 8 = some entryT ∧
        ({ hdr .ack 0 with full := true } : Header).full = true) ∧
      ((net up).rec? 2 = some up ∧ (net up).tx.state ≠ .awaitAck) := by decide +kernel

/-- An UP record with two failures noted. -/
def failedTwice : Record := { up with failStreak := 2 }
/-- A page awaited; the last attempt with the addressee gone, and with two failures behind it; a host frame, a transit
frame of slot 2 and one without a source; a standing request and none. -/
theorem test_meets_AttemptsAreSettledOnce_exhausted :
    (AttemptOutcome.full ≠ .accepted ∧ (awaiting 6).tx.attempt ≤ (awaiting 6).cfg.rMax ∧
        (awaiting 7).cfg.rMax < (awaiting 7).tx.attempt) ∧
      ({ awaiting 7 with tx := { (awaiting 7).tx with chosen := some (.page 2 3) } } : State).tx.chosen =
        some (.page 2 3) ∧
      ({ awaiting 7 with slots := [] } : State).findPeer 0x117#12 = none ∧
      (({ awaiting 7 with slots := (net failedTwice).slots } : State).findPeer 0x117#12 = some 2 ∧
        ({ awaiting 7 with slots := (net failedTwice).slots } : State).rec? 2 = some failedTwice ∧
        failedTwice.link = .up ∧ 3 ≤ failedTwice.failStreak + 1) ∧
      ((awaiting 7).entry? 8 = some entryT ∧ entryT.tag = some 5 ∧
        ({ entryT with tag := none, source := some 2 } : Entry).source = some 2 ∧
        ({ entryT with tag := none } : Entry).source = none) ∧
      ((asking (awaiting 7)).rx.request = true ∧ (asking (awaiting 7)).rx.holds = false ∧
        (awaiting 7).rx.request = false) := by decide +kernel

/-- UP at its silence limit, within its forget time and at it; the check on it and on another. -/
theorem test_meets_SilenceLosesTheLink :
    (∀ now ∈ [119999999, 120000000], (netAt { up with silence := 600000 } now).inReset = false ∧
        (netAt { up with silence := 600000 } now).rec? 2 = some { up with silence := 600000 } ∧
        ({ up with silence := 600000 } : Record).link = .up ∧
        (netAt { up with silence := 600000 } now).cfg.kSilence * up.advert.mode.interval ≤ 600000 / 1000) ∧
      ((netAt up 119999999).nowMs - up.lastHeard < 1000 * (netAt up 119999999).cfg.forget) ∧
      (1000 * (netAt up 120000000).cfg.forget ≤ (netAt up 120000000).nowMs - up.lastHeard) ∧
      ((checking (.pacing 9)).check.record = some checkT ∧ checkT.slot = 2 ∧ (checking (.pacing 9)).check.state ≠ .idle ∧
        checkT.slot ≠ 3) := by decide +kernel

/-- A REFLECT for the peer pending, and on air. -/
theorem test_meets_SilenceLosesTheLink_reflect :
    ((reflecting 0x117#12).tx.reflect = some ⟨4, 0x117#12, [], 0⟩ ∧ (reflecting 0x117#12).tx.state ≠ .sending) ∧
      ((sends (.reflect 4)).tx.reflect = some ⟨4, 0x117#12, [], 0⟩ ∧ (sends (.reflect 4)).tx.state = .sending ∧
        (sends (.reflect 4)).tx.chosen = some (.reflect 4) ∧ (sends (.reflect 4)).rec? 2 = some up) := by decide +kernel

/-- A record that is not UP. -/
theorem test_meets_SilenceLosesTheLink_other :
    (net heard).rec? 2 = some heard ∧ heard.link ≠ .up ∧ (net offering).rec? 2 = some offering ∧
      offering.link ≠ .up := by decide +kernel

/-- R33 to R36: a loss makes the link LOST and reports its cause, whichever it is. -/
theorem test_loss_causes :
    ∀ cause ∈ [LinkCause.silent, .noAck, .notEchoed],
      (((net up).loseLink 2 cause).rec? 2).map Record.link = some .lost ∧
        ((net up).loseLink 2 cause).reports.map Report.body = [.neighbour .lost cause (some .lost)] := by
  decide +kernel

/-- R37: a loss of a record past the forget time removes it at once. -/
theorem test_loss_aged :
    ((netAt up 120000000).loseLink 2 .noAck).rec? 2 = none ∧
      ((netAt up 120000000).loseLink 2 .noAck).reports.map Report.body = [.neighbour .removed .aged none] := by
  decide +kernel

/-- A record at its age; a wait ended on a candidate and on none; an exchange timed out, refusing or not; a holdoff
ended. -/
theorem test_meets_PairingTimersActOnTheirRecord :
    ((netAt heard 120000000).inReset = false ∧ (netAt heard 120000000).rec? 2 = some heard ∧ heard.link = .heard ∧
        1000 * (netAt heard 120000000).cfg.forget ≤ (netAt heard 120000000).nowMs - heard.lastHeard) ∧
      ((net { heard with initWait := some 0 }).rec? 2 = some { heard with initWait := some 0 } ∧ 0 ≤ (net heard).now ∧
        (net { heard with initWait := some 0 }).candidate { heard with initWait := some 0 } = true) ∧
      ((net { offering with initWait := some 0 }).rec? 2 = some { offering with initWait := some 0 } ∧
        (net { offering with initWait := some 0 }).candidate { offering with initWait := some 0 } = false) ∧
      ((netAt offering 10).rec? 2 = some offering ∧ offering.exch = some (exch false) ∧
        (exch false).timer ≤ (netAt offering 10).now ∧ (exch false).refusing = false) ∧
      ((netAt { offering with exch := some (exch true) } 10).rec? 2 = some { offering with exch := some (exch true) } ∧
        (exch true).timer ≤ 10 ∧ (exch true).refusing = true) ∧
      ((net { heard with holdoff := some 0 }).rec? 2 = some { heard with holdoff := some 0 }) := by decide +kernel

/-- A candidate with the higher address, one with the lower, without a wait and with one, and a record that is none. -/
theorem test_meets_PairingTimersActOnTheirRecord_candidates :
    (∀ r ∈ [heard, { heard with peer := 0x041#12 }, { heard with peer := 0x041#12, initWait := some 0 }],
        (net r).rec? 2 = some r ∧ r.link = .heard ∧ (net r).station = .onAir ∧ (net r).upCount < 12 ∧
        r.advert.room = true ∧ r.holdoff = none) ∧
      ((net heard).cfg.address.toNat < heard.peer.toNat ∧ (0x041#12).toNat ≤ (net heard).cfg.address.toNat ∧
        heard.initWait = none) ∧
      ((net { heard with holdoff := some 9 }).rec? 2 = some { heard with holdoff := some 9 } ∧
        ({ heard with holdoff := some 9 } : Record).holdoff ≠ none ∧ (net heard).rec? 0 = none) := by decide +kernel

/-- A holdoff of 1 µs on a young record; a record at its age; 11 and 12 others UP; an exchange with terms. -/
theorem test_meets_TableGrantsAndRefusesRequests :
    (net offering).rec? 2 = some offering ∧ 0 < 1 ∧
      (netAt offering 119999999).nowMs - offering.lastHeard < 1000 * (netAt offering 119999999).cfg.forget ∧
      1000 * (netAt offering 120000000).cfg.forget ≤ (netAt offering 120000000).nowMs - offering.lastHeard ∧
      ((crowd offering 11).rec? 2 = some offering ∧ offering.exch = some (exch false) ∧ (crowd offering 11).upCount < 12) ∧
      ((crowd offering 12).rec? 2 = some offering ∧ 12 ≤ (crowd offering 12).upCount) ∧
      ((exch false).maxPayload = some 700 ∧ (exch false).pace = some 30 ∧
        ({ exch false with peer := some ⟨7, 5, true⟩ } : Exchange).peer = some ⟨7, 5, true⟩) := by decide +kernel

/-- An exchange whose peer gave no maximum payload and no pace; a holdoff of 0. -/
theorem test_meets_TableGrantsAndRefusesRequests_defaults :
    (net (inExch { exch false with maxPayload := none, pace := none })).rec? 2 =
        some (inExch { exch false with maxPayload := none, pace := none }) ∧
      ({ exch false with maxPayload := none, pace := none } : Exchange).maxPayload = none ∧
      ({ exch false with maxPayload := none, pace := none } : Exchange).pace = none ∧
      (net (inExch { exch false with maxPayload := none, pace := none })).upCount < 12 := by decide +kernel

/-- A completion that changes the path cost or the eligible flag, and one that changes neither. -/
theorem test_meets_TableGrantsAndRefusesRequests_route :
    ((offering.reachedUp cfgT (exch false)).costed cfgT).eligible ≠ offering.eligible ∧
      ((({ offering with advert := advT 4095 0x010#12, pathCost := 4095 } : Record).reachedUp cfgT
          (exch false)).costed cfgT).pathCost = 4095 ∧
      ((({ offering with advert := advT 4095 0x010#12, pathCost := 4095 } : Record).reachedUp cfgT
          (exch false)).costed cfgT).eligible = offering.eligible := by decide +kernel

/-- HEARD with 11 and 12 others UP; UP; OFFERING with a repeat, a repeated page, a lower nonce, a refusal; 1 page
expected and none. -/
theorem test_meets_OfferEngineClassifiesPages :
    ((crowd heard 11).rec? 2 = some heard ∧ heard.link = .heard ∧ (crowd heard 11).upCount < 12) ∧
      ((crowd heard 12).rec? 2 = some heard ∧ 12 ≤ (crowd heard 12).upCount) ∧ (0 < 1 ∧ 0 = 0) ∧
      ((net up).rec? 2 = some up ∧ up.link = .up) ∧
      ((net offering).rec? 2 = some offering ∧ offering.link = .offering ∧ offering.exch = some (exch false) ∧
        (exch false).lastPage = some 0 ∧ (exch false).role = .proposer ∧ (exch false).peer = none ∧
        (499 : Word16).toNat < (exch false).ownNonce.toNat) ∧
      ((net { offering with exch := some { exch false with peer := some ⟨7, 5, true⟩ } }).rec? 2 =
          some { offering with exch := some { exch false with peer := some ⟨7, 5, true⟩ } } ∧
        ({ exch false with peer := some ⟨7, 5, true⟩ } : Exchange).lastPage = some 0 ∧ (⟨7, 5, true⟩ : PeerOpen).nonce = 7) := by
  decide +kernel

/-- AWAITING PAGES with 2, 1 and 0 pages more, in both roles; a page of a number not awaited, of a refusing record and
in SENDING PAGES; a PROPOSER with no peer OPEN and with one; nonces below, equal to and above its own. -/
theorem test_meets_ExchangesRunToTheirEnd_pages :
    (∀ x ∈ [answerer 0 2, answerer 1 1, answerer 1 0, { answerer 1 1 with role := .proposer }, exch false, exch true,
        { answerer 0 2 with role := .proposer }],
        (net (inExch x)).rec? 2 = some (inExch x) ∧ (inExch x).link = .offering ∧ (inExch x).exch = some x) ∧
      (∀ x ∈ [answerer 0 2, answerer 1 1, answerer 1 0, { answerer 1 1 with role := .proposer }],
        x.refusing = false ∧ x.phase = .awaitingPages) ∧
      (1 < (answerer 0 2).expected ∧ (answerer 1 1).expected = 1 ∧ (answerer 1 0).expected = 0 ∧
        (answerer 1 1).lastPage = some 1) ∧
      (1 ≤ 1 ∧ (exch true).lastPage ≠ some 1 ∧ (exch true).refusing = true ∧ (exch false).phase = .sendingPages) ∧
      (1 ≤ 3 ∧ (answerer 1 1).lastPage ≠ some 3 ∧ (answerer 1 1).lastPage ≠ some (3 - 1)) ∧
      ((exch false).role = .proposer ∧ (exch false).peer = none ∧ (exch false).phase = .sendingPages) ∧
      (({ answerer 0 2 with role := .proposer } : Exchange).role = .proposer ∧
        ({ answerer 0 2 with role := .proposer } : Exchange).peer = some ⟨7, 5, true⟩ ∧
        (⟨7, 5, true⟩ : PeerOpen).nonce ≠ 8) ∧
      (499 : Word16).toNat < (exch false).ownNonce.toNat ∧ (500 : Word16) = (exch false).ownNonce ∧
      (exch false).ownNonce.toNat < (501 : Word16).toNat := by decide +kernel

/-- An ANSWERER and a fresh OPEN, one of the peer nonce, with 11 and 12 UP; own pages 1, 2 and the last acknowledged;
a refusing OPEN acknowledged; no page pending; a page that asks for its ACK, to 0x0A3 and to 0xFFE. -/
theorem test_meets_ExchangesRunToTheirEnd_answers :
    ((answerer 0 2).role = .answerer ∧ (answerer 0 2).peer = some ⟨7, 5, true⟩ ∧ (⟨7, 5, true⟩ : PeerOpen).nonce = 7 ∧
        (answerer 1 1).lastPage ≠ some 0 ∧ (⟨7, 5, true⟩ : PeerOpen).nonce ≠ 8) ∧
      ((crowd (inExch (answerer 0 2)) 11).rec? 2 = some (inExch (answerer 0 2)) ∧
        (crowd (inExch (answerer 0 2)) 11).upCount < 12 ∧ 12 ≤ (crowd (inExch (answerer 0 2)) 12).upCount) ∧
      (∀ x ∈ [atPage (exch false) 0, atPage (exch false) 1, atPage (exch false) 2, atPage (answerer 2 0) 2,
          { atPage (exch true) 0 with role := .answerer, ownCount := 0 }],
        (net (inExch x)).rec? 2 = some (inExch x) ∧ (x.page.map Page.id) = some 3) ∧
      (1 + 1 ≤ (atPage (exch false) 1).ownCount ∧ (atPage (exch false) 2).ownCount < 2 + 1 ∧
        (atPage (exch false) 2).role = .proposer ∧ (atPage (answerer 2 0) 2).role = .answerer ∧
        (atPage (answerer 2 0) 2).refusing = false ∧
        ({ atPage (exch true) 0 with role := .answerer, ownCount := 0 } : Exchange).refusing = true) ∧
      (answerer 0 2).page = none ∧
      ((hdr .offer 8).kind = .offer ∧ (rxf (hdr .offer 8)).store = true ∧ parseOffer (withCheck [9]) = none ∧
        checkPasses (withCheck [9]) = true ∧
        parseOffer (withCheck (termBytes 1 1 600)) = some (.term 1 1 600) ∧
        ((net (inExch (answerer 0 2))).takePage 2 (.term 1 1 600)).2 = true ∧
        ((net (inExch (answerer 0 2))).takePage 2 (.term 3 1 600)).2 = false ∧
        ({ hdr .offer 8 with dest := 0xFFE#12 } : Header).dest = 0xFFE#12 ∧ (hdr .offer 8).dest ≠ 0xFFE#12 ∧
        (hdr .offer 8).dest ≠ 0xFFF#12) := by decide +kernel

/-- Each body of 12.1 read, and one malformed (R170). -/
theorem test_meets_ParsedBodies :
    ((parseData (dataBytes 0x2C0#12 0x0A3#12 3)).isSome = true ∧ parseData (List.replicate 8 1) = none) ∧
      ((parseBeacon (withCheck (beaconBody (advT 40 0x010#12) [⟨0x118#12, 9⟩]))).isSome = true ∧
        parseBeacon (List.replicate 11 0) = none) ∧
      (parseOffer (withCheck (openBytes .proposer false 7 5 true 2)) = some (.opening .proposer false 7 5 true 2) ∧
        parseOffer (withCheck (termBytes 3 9 600)) = some (.term 3 9 600) ∧ parseOffer [4, 0, 0, 0, 0, 0] = none) ∧
      (7 < 8 ∧ 0 < 8) := by decide +kernel

/-- A fade at its brief expiry and at its settle expiry, FADED and LEAVING, with a trim under way. -/
theorem test_meets_LongFadesBecomeShadowsAndSettle :
    ((netAt { up with fade := fadedAt 0 } 1500000).inReset = false ∧
        (netAt { up with fade := fadedAt 0 } 1500000).rec? 2 = some { up with fade := fadedAt 0 } ∧
        (fadedAt 0).state = .faded ∧ 1500 ≤ (netAt { up with fade := fadedAt 0 } 1500000).nowMs ∧
        (fadedAt 0).brief = some 1500 ∧ (fadedAt 0).shadow = false) ∧
      ((netAt (trimming { up with fade := { fadedAt 0 with state := .leaving } } .settling) 30000000).rec? 2 =
          some (trimming { up with fade := { fadedAt 0 with state := .leaving } } .settling) ∧
        (trimming { up with fade := { fadedAt 0 with state := .leaving } } .settling).fade.state = .leaving ∧
        30000 ≤ (netAt up 30000000).nowMs ∧
        (trimming { up with fade := { fadedAt 0 with state := .leaving } } .settling).fade.settle = some 30000 ∧
        (trimming up .settling).trim.state ≠ .idle) := by decide +kernel

/-- A settle expiry on an IDLE record with X outside the window, within it, and with no echo. -/
theorem test_meets_LongFadesBecomeShadowsAndSettle_trim :
    (∀ r ∈ [{ upRec 0x117#12 (some 117) 2 3 40 with fade := fadedAt 0 }, { up with fade := fadedAt 0 },
        { heard with fade := fadedAt 0 }], (netAt r 30000000).rec? 2 = some r ∧ r.fade.state = .faded ∧
        r.fade.settle = some 30000 ∧ r.trim.state = .idle) ∧
      ((upRec 0x117#12 (some 117) 2 3 40).link = .up ∧ (upRec 0x117#12 (some 117) 2 3 40).trim.echo = some 117 ∧
        (cfgT.hTrim : Int) < |((117 : Nat) : Int) - 2 * (31 - ((2 : Nat) : Int)) - cfgT.mTgt|) ∧
      (up.trim.echo = some 95 ∧ up.trim.step = 19 ∧
        ¬ (cfgT.hTrim : Int) < |((95 : Nat) : Int) - 2 * (31 - ((19 : Nat) : Int)) - cfgT.mTgt|) ∧
      heard.trim.echo = none := by decide +kernel

/-- Two expiries that are one, and two that are not; a next hop that changes at each expiry. -/
theorem test_meets_LongFadesBecomeShadowsAndSettle_route :
    (1000 * ({ cfgT with tSettle := 2, tBrief := 2000 } : Settings).tSettle ≤
        ({ cfgT with tSettle := 2, tBrief := 2000 } : Settings).tBrief ∧
        ¬ 1000 * (netAt strongFaded 0).cfg.tSettle ≤ (netAt strongFaded 0).cfg.tBrief) ∧
      (after (.briefExpiry 2) (netAt strongFaded 1500000)).route ≠ (netAt strongFaded 1500000).route ∧
      (after (.settleExpiry 2) (netAt strongFaded 30000000)).route ≠ (netAt strongFaded 30000000).route := by
  decide +kernel

/-- A settling timed out; a holdoff ended with X inside the window, and outside it; a window at its end. -/
theorem test_meets_TrimTimersAndPeerWindowsEnd :
    ((net (trimming up .settling)).inReset = false ∧ (net (trimming up .settling)).rec? 2 = some (trimming up .settling) ∧
        (trimming up .settling).trim.state = .settling ∧ (trimming up .settling).trim.timer = some 0 ∧ 0 ≤ (net up).now) ∧
      (∀ r ∈ [trimming up .holdoff, trimming (upRec 0x117#12 (some 117) 2 3 40) .holdoff],
        (net r).rec? 2 = some r ∧ r.trim.state = .holdoff ∧ r.trim.timer = some 0) ∧
      ((trimming up .holdoff).fade.state = .clear ∧ (trimming up .holdoff).trim.echo = some 95 ∧
        ¬ (cfgT.hTrim : Int) < |((95 : Nat) : Int) - 2 * (31 - ((19 : Nat) : Int)) - cfgT.mTgt|) ∧
      ((trimming (upRec 0x117#12 (some 117) 2 3 40) .holdoff).link = .up ∧
        (trimming (upRec 0x117#12 (some 117) 2 3 40) .holdoff).fade.state = .clear ∧
        (trimming (upRec 0x117#12 (some 117) 2 3 40) .holdoff).trim.echo = some 117 ∧
        (cfgT.hTrim : Int) < |((117 : Nat) : Int) - 2 * (31 - ((2 : Nat) : Int)) - cfgT.mTgt|) ∧
      ((net { up with windowEnd := some 0 }).rec? 2 = some { up with windowEnd := some 0 } ∧
        ({ up with windowEnd := some 0 } : Record).windowEnd = some 0) := by decide +kernel

/-- A host frame waiting at T_wait; a transit frame with its source; one that may go out and one in flight; a return
path at the route age. -/
theorem test_meets_WaitLimitAndRouteAgeExpire :
    (∀ q ∈ [{ entryT with dest := 0x333#12 }, { entryT with tag := none, source := some 2, dest := 0x333#12 }],
        ({ netAt up 10000000 with fwd := [q] } : State).inReset = false ∧
        ({ netAt up 10000000 with fwd := [q] } : State).fwd[0]? = some q ∧ q.waitDue = true ∧
        1000 * ({ netAt up 10000000 with fwd := [q] } : State).cfg.tWait ≤ (netAt up 10000000).nowMs - q.entered ∧
        ({ netAt up 10000000 with fwd := [q] } : State).examine q = .waiting ∧
        ({ netAt up 10000000 with fwd := [q] } : State).inFlight q.id = false ∧ ([q].map Entry.id).Nodup ∧
        ({ netAt up 10000000 with fwd := [q] } : State).chooses = false) ∧
      (entryT.tag = some 5 ∧ (netAt up 10000000).rec? 2 = some up) ∧
      (({ netAt up 10000000 with fwd := [entryT] } : State).examine entryT ≠ .waiting ∧
        (slotAt .defer 5 10000000).fwd[0]? = some entryT ∧ (slotAt .defer 5 10000000).inFlight 8 = true) ∧
      (({ netAt up 180000000 with paths := [⟨0x301#12, 2, 0⟩] } : State).paths.find? (fun e => decide (e.dest = 0x301#12)) =
          some ⟨0x301#12, 2, 0⟩ ∧ 1000 * (netAt up 180000000).cfg.routeAge ≤ (netAt up 180000000).nowMs - 0) := by
  decide +kernel

/-- ACQUIRING at its end; ACTIVE and QUIET at their step-down; a due time; a window and a survey at their end. -/
theorem test_meets_DutyTimersMoveTheStation :
    (({ ready with station := .acquiring, duty := { ready.duty with acquisition := some 0 } } : State).inReset = false ∧
        ({ ready with station := .acquiring, duty := { ready.duty with acquisition := some 0 } } : State).station = .acquiring ∧
        ({ ready with station := .acquiring, duty := { ready.duty with acquisition := some 0 } } : State).duty.acquisition =
          some 0 ∧ 0 ≤ ready.now) ∧
      (∀ m ∈ [DutyMode.active, .quiet], (dutyAt m .none).inReset = false ∧ (dutyAt m .none).station = .onAir ∧
        (dutyAt m .none).duty.mode = m ∧ (dutyAt m .none).duty.stepDown = some 0 ∧ (dutyAt m .none).duty.nextDue = some 0) ∧
      (dutyAt .doze (.window 0)).duty.listen = .window 0 ∧ (dutyAt .doze (.survey 0)).duty.listen = .survey 0 := by
  decide +kernel

/-- PACING at its end; a timeout that ends the check, one with the pace to run, one with the pace run out; a check with
its counters of probes at their ends, no last probe end and no limit; one with all its probes numbered. -/
theorem test_meets_CheckTimersPaceAndSettleProbes :
    ((checking (.pacing 0)).inReset = false ∧ (checking (.pacing 0)).check.record = some checkT ∧
        (checking (.pacing 0)).check.state = .pacing 0 ∧ countLimit checkT.countCode = some 10 ∧ checkT.next < 10 ∧
        0 ≤ (checking (.pacing 0)).now) ∧
      ((checkingOn { checkT with settled := 9, next := 10 } (.outstanding 9 0) ⟨3, 2, 1, 3, 0⟩).check.state ≠ .idle ∧
        countLimit ({ checkT with settled := 9, next := 10 } : CheckRecord).countCode = some ((9 + 1) % 65536) ∧
        ¬ ({ checkT with settled := 9, next := 10 } : CheckRecord).next < 10) ∧
      ((checking (.outstanding 1 0)).check.state = .outstanding 1 0 ∧
        countLimit checkT.countCode ≠ some ((checkT.settled + 1) % 65536) ∧ checkT.lastEnd = some 700 ∧
        (checking (.outstanding 1 0)).now < 700 + 1000 * (checking (.outstanding 1 0)).checkPace checkT ∧
        700 + 1000 * ({ checking (.outstanding 1 0) with now := 20700 } : State).checkPace checkT ≤
          ({ checking (.outstanding 1 0) with now := 20700 } : State).now) ∧
      ((checkingOn checkTop (.outstanding 9 0) ⟨3, 2, 1, 3, 0⟩).check.record = some checkTop ∧
        countLimit checkTop.countCode = none ∧ checkTop.lastEnd = none ∧ checkTop.settled = 65535 ∧
        (checkTop.settled + 1) % 65536 = 0 ∧ (checkTop.next + 1) % 4294967296 = 0) ∧
      ((checking (.pacing 0)).rec? checkT.slot = some up ∧ up.terms.map Terms.pace = some 20) := by decide +kernel

/-- A probe sent in WRAP, in SATURATE below and at its top; one of another number; a good PROBE taken, and one while the
buffer is in use; a REFLECT with no bit wrong, with some, at the tops of the counters, and none awaited. -/
theorem test_meets_ProbesAreReflectedAndCounted :
    (∀ c ∈ [{ checkT with mode := .wrap }, checkT], ∀ v ∈ [(⟨3, 2, 1, 3, 0⟩ : Counters), ⟨4294967294, 0, 0, 0, 0⟩],
        (checkingOn c (.pending 1 6 0) v).check.state = .pending 1 6 0 ∧
        (checkingOn c (.pending 1 6 0) v).check.record = some c ∧ (checkingOn c (.pending 1 6 0) v).check.live = v) ∧
      (checkT.mode = .saturate ∧ 3 + 1 < 4294967295 ∧ 4294967295 ≤ 4294967294 + 1) ∧
      (checking (.pacing 0)).check.state = .pacing 0 ∧
      (4 ≤ ([0, 0, 0, 1, 0xA5] : List Byte).length ∧ (net up).rec? 2 = some up ∧ up.link = .up ∧
        (net up).cfg.reflect = true ∧ (net up).tx.reflect = none ∧ (reflecting 0x117#12).tx.reflect ≠ none) ∧
      (∀ v ∈ [(⟨3, 2, 1, 3, 0⟩ : Counters), ⟨3, 4294967294, 4294967294, 65534, 255⟩],
        (checkingOn checkT (.outstanding 1 0) v).check.record = some checkT ∧
        (checkingOn checkT (.outstanding 1 0) v).check.state = .outstanding 1 0) ∧
      (checkT.peer = 0x117#12 ∧ natBE (([0, 0, 0, 1] ++ List.replicate 32 0xA5 : List Byte).take 4) = 1 ∧
        differingBits (([0, 0, 0, 1] ++ List.replicate 32 0xA5 : List Byte).drop 4) (patternBytes checkT 1) = 0 ∧
        differingBits (([0, 0, 0, 1] ++ List.replicate 31 0xA5 : List Byte).drop 4) (patternBytes checkT 1) = 8) ∧
      (net up).check.record = none ∧
      ((rxf (hdr .probe 8)).header.kind = .probe ∧ (rxf (hdr .reflect 8)).header.kind = .reflect ∧
        (rxf (hdr .probe 8)).store = true ∧ checkPasses (withCheck [0, 0, 0, 1]) = true) := by decide +kernel

/-- A record of each pattern, the first byte and the last. -/
theorem test_meets_ProbePatternsFollowTheRegister :
    checkT.pattern = .fixed ∧ ({ checkT with pattern := .incrementing } : CheckRecord).pattern = .incrementing ∧
      ({ checkT with pattern := .prbs } : CheckRecord).pattern = .prbs ∧ 0 < checkT.length ∧ 31 < checkT.length := by
  decide +kernel

/-- Margins 0 and 255, steps 31 and 32; the three speeds; a step, a forced step each way, and none. -/
theorem test_meets_MeasurementIsNormalisedAndFiltered :
    (0 ≤ 255 ∧ 255 ≤ 255 ∧ 31 ≤ 31 ∧ 31 < 32) ∧
      ((4 : Int) ≤ cfgT.sLo ∧ (cfgT.sLo : Int) < 5 ∧ (5 : Int) < cfgT.sHi ∧ cfgT.sLo < cfgT.sHi ∧ (cfgT.sHi : Int) ≤ 20) ∧
      (Int.tdiv (32 * 16) 256 ≠ 0 ∧ Int.tdiv (32 * 1) 256 = 0 ∧ Int.tdiv (32 * -1) 256 = 0) := by decide +kernel

/-- The default settings, and F and L away from their targets. -/
theorem test_meets_MeasurementStagesInOrder_bounds :
    cfgT.filterOk ∧ (0 : Int) ≠ 16 * 255 ∧ (4080 : Int) ≠ 0 := by
  unfold Settings.filterOk
  decide +kernel

/-- A baseline step of B_base 4 that is not 0, one forced up, one forced down, and none. -/
theorem test_meets_MeasurementStagesInOrder_baseline :
    Int.tdiv ((cfgT.bBase : Int) * (1120 - 480)) 256 ≠ 0 ∧
      (Int.tdiv ((cfgT.bBase : Int) * (1120 - 1057)) 256 = 0 ∧ (0 : Int) < 1120 - 1057) ∧
      (Int.tdiv ((cfgT.bBase : Int) * (1057 - 1120)) 256 = 0 ∧ (1057 : Int) - 1120 < 0) ∧ (1120 : Int) - 1120 = 0 := by
  decide +kernel

/-- R70 with B_base 4: a gap of 640 fine units steps 10, one of 63 steps 1, in either direction, and none steps 0. -/
theorem test_baseline_step :
    baselineStep cfgT 1120 480 = 490 ∧ baselineStep cfgT 480 1120 = 1110 ∧ baselineStep cfgT 1120 1057 = 1058 ∧
      baselineStep cfgT 1057 1120 = 1119 ∧ baselineStep cfgT 1120 1120 = 1120 := by decide +kernel

/-- A record, CLEAR; a measurement that changes its fade state and one that does not. -/
theorem test_meets_MeasurementStagesInOrder :
    (net up).rec? 2 = some up ∧ ((up.measured cfgT 0 70 false).1.fade.state = up.fade.state) ∧
      ((up.measured cfgT 0 10 false).1.fade.state ≠ up.fade.state) := by decide +kernel

/-- A LEAVING record whose fade a measurement ends, 1,000 ms in with class BLIP and 100 ms in with none. -/
theorem test_meets_MeasurementStagesInOrder_report :
    (net { up with F := 1120, L := 1120, fade := leavingAt 0 }).rec? 2 =
        some { up with F := 1120, L := 1120, fade := leavingAt 0 } ∧
      (fadeStep cfgT 1000 (1120 - filterStep cfgT 1120 70) (leavingAt 0)).2 = some (.blip, 1000, 30) ∧
      (fadeStep cfgT 100 (1120 - filterStep cfgT 1120 70) (leavingAt 0)).2 = none := by decide +kernel

/-- Every fade state, at the enter and exit levels and one below them, with the count below and at its limit, and the
four ends of a fade. -/
theorem test_meets_FadeMachineDebounces :
    (heard.fade.state = .clear ∧ ({ heard.fade with state := .entering, count := 1 } : Fade).count + 1 < cfgT.eIn ∧
        cfgT.eIn ≤ ({ heard.fade with state := .entering, count := 2 } : Fade).count + 1 ∧ 1 < cfgT.eIn ∧
        ({ cfgT with eIn := 1 } : Settings).eIn ≤ 1) ∧
      (decide (16 * (cfgT.tIn : Int) ≤ 384) = true ∧ decide (16 * (cfgT.tIn : Int) ≤ 383) = false ∧
        decide ((256 : Int) < 16 * ((cfgT.tIn : Int) - cfgT.hyst)) = false ∧
        decide ((255 : Int) < 16 * ((cfgT.tIn : Int) - cfgT.hyst)) = true) ∧
      ((fadedAt 0).state = .faded ∧ 1 < cfgT.eOut ∧ ({ cfgT with eOut := 1 } : Settings).eOut ≤ 1 ∧
        ({ fadedAt 0 with state := .leaving, count := 1 } : Fade).count + 1 < cfgT.eOut ∧
        cfgT.eOut ≤ ({ fadedAt 0 with state := .leaving, count := 2 } : Fade).count + 1 ∧ (fadedAt 0).start = some 0) ∧
      (cfgT.tBrief ≤ 1500 - 0 ∧ 1499 - 0 < cfgT.tBrief ∧ 149 - 0 < cfgT.tMin ∧ cfgT.tMin ≤ 150 - 0 ∧
        (fadedAt 0).shadow = false ∧ cfgT.dDeep ≤ ({ fadedAt 0 with maxDef := 48 } : Fade).maxDef ∧
        ({ fadedAt 0 with maxDef := 47 } : Fade).maxDef < cfgT.dDeep) := by decide +kernel

/-- T_settle at T_brief and above it; a fade that ends by its count, by E_out 1, and one that does not end. -/
theorem test_meets_FadeMachineDebounces_ends :
    (1000 * ({ cfgT with tSettle := 2, tBrief := 2000 } : Settings).tSettle ≤
        ({ cfgT with tSettle := 2, tBrief := 2000 } : Settings).tBrief ∧ cfgT.tBrief < 1000 * cfgT.tSettle) ∧
      ((leavingAt 0).state = .leaving ∧ cfgT.eOut ≤ (leavingAt 0).count + 1 ∧
        ({ cfgT with eOut := 1 } : Settings).eOut ≤ 1 ∧ (fadedAt 0).state = .faded ∧ ¬ cfgT.eOut ≤ 1 ∧
        decide ((0 : Int) < 16 * ((cfgT.tIn : Int) - cfgT.hyst)) = true ∧ (leavingAt 0).start = some 0) := by
  decide +kernel

/-- No echo; not UP; UP with an echo and terms, with a fade held and with none. -/
theorem test_meets_RateClassAndCostsOfARecord :
    heard.trim.echo = none ∧ heard.link ≠ .up ∧ up.trim.echo = some 95 ∧
      up.terms = some { rateCeiling := 7, maxPayload := 600, pace := 20, peerReflects := true } ∧ up.link = .up ∧
      up.fade.state = .clear ∧ (fadedAt 0).state = .faded ∧ 0 < rateClass cfgT up := by decide +kernel

/-- A record in the table, nothing of it to recompute, and one whose path cost moves; a fade state and a shadow flag
that changed; a holdoff at its end. -/
theorem test_meets_RateClassAndCostsOfARecord_announced :
    ((net up).rec? 2 = some up ∧ up.costed (net up).cfg = up ∧ rateUsed (net up).cfg up = up.trim.rUsed) ∧
      ((net { up with pathCost := 9 }).rec? 2 = some { up with pathCost := 9 } ∧
        (({ up with pathCost := 9 } : Record).costed cfgT).pathCost ≠ 9) ∧
      (up.link = .up ∧ ({ up with fade := fadedAt 0 } : Record).fade.state ≠ heard.fade.state ∧
        ({ fadedAt 0 with shadow := true } : Fade).shadow ≠ (fadedAt 0).shadow) ∧
      ((net (trimming up .holdoff)).inReset = false ∧ (net (trimming up .holdoff)).rec? 2 = some (trimming up .holdoff) ∧
        (trimming up .holdoff).trim.state = .holdoff ∧ (trimming up .holdoff).trim.timer = some 0 ∧
        0 ≤ (net up).now) := by decide +kernel

/-- Echoes that ask for steps −1, 0, 31 and 32. -/
theorem test_meets_TrimSetsTheWantedStep :
    ({ up.trim with echo := some 136 } : Trim).echo = some 136 ∧ 31 - Int.tdiv ((136 : Int) - cfgT.mTgt) 2 = -1 ∧
      31 - Int.tdiv ((134 : Int) - cfgT.mTgt) 2 = 0 ∧ 31 - Int.tdiv ((72 : Int) - cfgT.mTgt) 2 = 31 ∧
      31 - Int.tdiv ((70 : Int) - cfgT.mTgt) 2 = 32 := by decide +kernel

/-- The trigger met and not; HEARD; IDLE, HOLDOFF, SETTLING with echoes to come and at the last; fades that announce a
change into CLEAR, another, and none. -/
theorem test_meets_TrimSetsTheWantedStep_echo :
    (∀ r ∈ [up, heard, upRec 0x117#12 (some 117) 2 3 40, trimming up .holdoff, settling 0, settling (cfgT.kSettle - 1)],
        (net r).rec? 2 = some r) ∧
      (heard.link ≠ .up ∧ up.link = .up ∧ up.trim.state = .idle ∧ up.fade.state = .clear ∧
        trimTriggers cfgT (upRec 0x117#12 (some 117) 2 3 40) = true ∧ trimTriggers cfgT up = false) ∧
      ((trimming up .holdoff).trim.state = .holdoff ∧ (settling 0).trim.state = .settling ∧
        (settling 0).trim.count + 1 < (net up).cfg.kSettle ∧
        (net up).cfg.kSettle ≤ (settling (cfgT.kSettle - 1)).trim.count + 1) ∧
      (up.trim.echo = some 95 ∧ up.fade.state = .clear ∧ (fadedAt 0).state ≠ .clear ∧
        ({ up with fade := fadedAt 0 } : Record).fade.state ≠ .clear ∧ heard.fade.shadow = up.fade.shadow) := by
  decide +kernel

/-- A station with a best choice, and one with none. -/
theorem test_meets_BestChoiceIsTheCheapestEligible :
    (twoPeers 48).bestChoice.isSome = true ∧ onAir.bestChoice = none := by decide +kernel

/-- A gateway; no next hop with no choice and with one; a next hop that is kept by the margin, left at it, and itself
the best; route changed and not. -/
theorem test_meets_ReselectionHoldsTheSwitchMargin :
    ({ onAir with settings := some { cfgT with gateway := true } } : State).cfg.gateway = true ∧
      (onAir.cfg.gateway = false ∧ onAir.currentHop = none ∧ onAir.bestChoice = none) ∧
      ((net up).currentHop = none ∧ (net up).bestChoice = some (2, up)) ∧
      ((twoPeers 50).currentHop.map (fun c => (c.1, c.2.pathCost)) = some (1, 50) ∧
        (twoPeers 50).bestChoice.map (fun b => (b.1, b.2.pathCost)) = some (0, 45) ∧
        (twoPeers 50).cfg.sSw = 6 ∧ 50 < 45 + 6 ∧ 45 + 6 ≤ 51 ∧
        (twoPeers 51).currentHop.map (fun c => (c.1, c.2.pathCost)) = some (1, 51)) ∧
      ((twoPeers 44).currentHop.map Prod.fst = some 1 ∧ (twoPeers 44).bestChoice.map Prod.fst = some 1) ∧
      (twoPeers 48).reselect.route = (twoPeers 48).route ∧ (twoPeers 67).reselect.route ≠ (twoPeers 67).route := by
  decide +kernel

/-- A key not pending with room and with none; a pending key of a DUTY and of a DROP report. -/
theorem test_meets_ReportsCoalesceInPlace :
    (∀ r ∈ [dutyT], r.body.kind ≠ .drop ∨ r.addr ≠ 0xFFE#12) ∧ [dutyT].length < 32 ∧
      (∀ r ∈ List.replicate 32 dutyT, r.body.kind ≠ .drop ∨ r.addr ≠ 0xFFE#12) ∧ 32 ≤ (List.replicate 32 dutyT).length ∧
      ([dutyT, dropT] = [dutyT] ++ dropT :: [] ∧ dropT.body.kind = .drop ∧ dropT.addr = 0xFFE#12 ∧
        (∀ q ∈ [dutyT], q.body.kind ≠ .drop ∨ q.addr ≠ 0xFFE#12) ∧ dropT.body = .drop 4 14 .noPath 6) ∧
      ([dutyT] = [] ++ dutyT :: [] ∧ dutyT.body.kind = .duty ∧ dutyT.addr = 0) := by decide +kernel

end Sys2Proof.Tests
end

