-- ==== Sys2Proof/Proofs/Measurement.lean ====
section
/-! The margin's arithmetic case by case: the normalised measurement (R63), the gain by speed (R67), the step of a gap
with its forced least step (R68, R70), and the filter step made of them. -/

namespace Sys2Proof.Machine

/-! ## The normalised measurement (R63) -/

theorem normalise_of_le {p : Nat} (raw : Nat) (hp : p ≤ 31) :
    normalise raw p = min 255 (raw + 2 * (31 - p)) := by
  rw [normalise, Nat.min_eq_right hp]

/-- Above step 31 nothing is added: the raw margin itself is left, at most 255. -/
theorem normalise_of_lt {p : Nat} (raw : Nat) (hp : 31 < p) : normalise raw p = min 255 raw := by
  rw [normalise, Nat.min_eq_left hp.le, Nat.sub_self, Nat.mul_zero, Nat.add_zero]

theorem normalise_le (raw p : Nat) : normalise raw p ≤ 255 := Nat.min_le_left ..

/-! ## The gain by speed (R67) -/

section
variable {c : Settings} {speed : Int}

theorem filterGain_of_slow (h : speed ≤ c.sLo) : filterGain c speed = c.bSlow := if_pos h

theorem filterGain_of_between (hlo : (c.sLo : Int) < speed) (hhi : speed < c.sHi) :
    filterGain c speed =
      c.bSlow + Int.tdiv ((256 - (c.bSlow : Int)) * (speed - c.sLo)) (c.sHi - c.sLo) := by
  rw [filterGain, if_neg hlo.not_ge, if_pos hhi]

theorem filterGain_of_fast (hlo : (c.sLo : Int) < speed) (hhi : (c.sHi : Int) ≤ speed) :
    filterGain c speed = 256 := by
  rw [filterGain, if_neg hlo.not_ge, if_neg hhi.not_gt]

end

/-! ## A step of gain/256 of a gap, and the least step forced (R68, R70) -/

section
variable {gain d : Int}

theorem forcedStep_of_quotient (h : Int.tdiv (gain * d) 256 ≠ 0) :
    forcedStep gain d = Int.tdiv (gain * d) 256 := if_neg h

theorem forcedStep_of_pos (h : Int.tdiv (gain * d) 256 = 0) (hd : 0 < d) : forcedStep gain d = 1 := by
  rw [forcedStep, if_pos h, Int.sign_eq_one_of_pos hd]

theorem forcedStep_of_neg (h : Int.tdiv (gain * d) 256 = 0) (hd : d < 0) : forcedStep gain d = -1 := by
  rw [forcedStep, if_pos h, Int.sign_eq_neg_one_of_neg hd]

@[simp] theorem forcedStep_zero (gain : Int) : forcedStep gain 0 = 0 := by simp [forcedStep]

end

/-! ## The statement -/

/-- Settles O53: the branches of `normalise` by the power step, of `filterGain` by the speed, and of `forcedStep`, which
`filterStep` adds to F, by the quotient and the gap's sign. -/
theorem measurementIsNormalisedAndFiltered : Obligations.MeasurementIsNormalisedAndFiltered := by
  unfold Obligations.MeasurementIsNormalisedAndFiltered
  constructor
  · intro raw p hraw
    refine ⟨normalise_of_le raw, fun hp => ?_, normalise_le raw p⟩
    rw [normalise_of_lt raw hp, Nat.min_eq_right hraw]
  · intro c F m d speed β
    have step_eq : filterStep c F m = F + forcedStep β d := rfl
    refine ⟨filterGain_of_slow, filterGain_of_between, ?_, ?_, ?_, ?_, ?_⟩
    · exact fun hrange hfast => filterGain_of_fast (by omega) hfast
    · exact fun hq => by rw [step_eq, forcedStep_of_quotient hq]
    · exact fun hq hd => by rw [step_eq, forcedStep_of_pos hq hd]
    · exact fun hq hd => by rw [step_eq, forcedStep_of_neg hq hd, Int.sub_eq_add_neg]
    · exact fun hd => by rw [step_eq, hd, forcedStep_zero, Int.add_zero]

end Sys2Proof.Machine
end

