-- ==== Sys2Proof/Proofs/RateClass.lean ====
section
/-! The rate class of a record (R104) and the costs that follow from it (R107 to R109): the class by the margin, what a
recomputation writes, and that every moment of R104 ends in one. -/

namespace Sys2Proof.Machine

/-! ## The class by the margin (R104) -/

/-- No class requires more margin than a higher one. -/
theorem classMargin_mono {a b : Nat} (hab : a ≤ b) (hb : b ≤ 7) : classMargin a ≤ classMargin b := by
  have table : ∀ b < 8, ∀ a < b + 1, classMargin a ≤ classMargin b := by decide
  exact table b (by omega) a (by omega)

section
variable {guard : Nat} {X : Int}

theorem highestClass_le (n : Nat) : highestClass guard X n ≤ n := by
  induction n with
  | zero => exact Nat.le_refl 0
  | succ n ih =>
    rw [highestClass]
    split
    · exact Nat.le_refl _
    · omega

/-- The class found is 0 or has its margin and guard met. -/
theorem highestClass_met {n : Nat} (hpos : 0 < highestClass guard X n) :
    (classMargin (highestClass guard X n) : Int) + guard ≤ X := by
  induction n with
  | zero => simp [highestClass] at hpos
  | succ n ih =>
    rw [highestClass] at hpos ⊢
    split
    · assumption
    · rename_i hnot
      exact ih (by rwa [if_neg hnot] at hpos)

/-- No class in reach whose margin and guard are met is passed over. -/
theorem le_highestClass {k n : Nat} (hkn : k ≤ n) (hmet : (classMargin k : Int) + guard ≤ X) :
    k ≤ highestClass guard X n := by
  induction n with
  | zero => omega
  | succ n ih =>
    rw [highestClass]
    split
    · exact hkn
    · rename_i hnot
      have hne : k ≠ n + 1 := fun hk => hnot (hk ▸ hmet)
      exact ih (by omega)

end

section
variable {c : Settings} {r : Record} {e : Nat} {m : Terms}

theorem rateClass_of_no_echo (he : r.trim.echo = none) : rateClass c r = 0 := by
  simp [rateClass, he]

theorem rateClass_eq (he : r.trim.echo = some e) (hm : r.terms = some m) :
    rateClass c r = min (highestClass c.guard (expectedMargin e r.trim.step) 7) m.rateCeiling := by
  simp [rateClass, he, hm]

theorem rateClass_le_seven (c : Settings) (r : Record) : rateClass c r ≤ 7 := by
  unfold rateClass
  split
  · exact (Nat.min_le_left ..).trans (highestClass_le 7)
  · exact Nat.zero_le 7

theorem rateClass_le_ceiling (hm : r.terms = some m) : rateClass c r ≤ m.rateCeiling := by
  cases he : r.trim.echo with
  | none => rw [rateClass_of_no_echo he]; exact Nat.zero_le _
  | some e => rw [rateClass_eq he hm]; exact Nat.min_le_right ..

/-- The class of a record is 0 or has its margin and guard met, under a ceiling too: a lower class asks no more. -/
theorem rateClass_met (he : r.trim.echo = some e) (hm : r.terms = some m) (hpos : 0 < rateClass c r) :
    (classMargin (rateClass c r) : Int) + c.guard ≤ expectedMargin e r.trim.step := by
  have hle : rateClass c r ≤ highestClass c.guard (expectedMargin e r.trim.step) 7 :=
    rateClass_eq he hm ▸ Nat.min_le_left ..
  have hmono := classMargin_mono hle (highestClass_le 7)
  have hmet := highestClass_met (hpos.trans_le hle)
  omega

theorem le_rateClass {n : Nat} (he : r.trim.echo = some e) (hm : r.terms = some m) (hn : n ≤ 7)
    (hceil : n ≤ m.rateCeiling) (hmet : (classMargin n : Int) + c.guard ≤ expectedMargin e r.trim.step) :
    n ≤ rateClass c r := by
  rw [rateClass_eq he hm]
  exact Nat.le_min.mpr ⟨le_highestClass hn hmet, hceil⟩

end

/-! ## The class used: outside UP and under a held fade (R104) -/

theorem held_iff (f : FadeState) : f.held = true ↔ f = .faded ∨ f = .leaving := by
  cases f <;> decide

section
variable {c : Settings} {r : Record}

theorem rateUsed_of_not_up (hup : r.link ≠ .up) : rateUsed c r = 0 := if_neg hup

theorem rateUsed_of_held (hup : r.link = .up) (hf : r.fade.state.held = true) :
    rateUsed c r = rateClass c r - 1 := by
  rw [rateUsed, if_pos hup, if_pos hf]

theorem rateUsed_of_not_held (hup : r.link = .up) (hf : ¬r.fade.state.held = true) :
    rateUsed c r = rateClass c r := by
  rw [rateUsed, if_pos hup, if_neg hf]

theorem rateUsed_le_rateClass (c : Settings) (r : Record) : rateUsed c r ≤ rateClass c r := by
  unfold rateUsed
  split
  · split
    · exact Nat.sub_le ..
    · exact Nat.le_refl _
  · exact Nat.zero_le _

theorem rateUsed_of_no_echo (he : r.trim.echo = none) : rateUsed c r = 0 :=
  Nat.le_zero.mp (rateClass_of_no_echo (c := c) he ▸ rateUsed_le_rateClass c r)

end

/-! ## The costs (R107 to R109) -/

theorem eligibleOf_iff (c : Settings) (r : Record) :
    eligibleOf c r = true ↔
      r.link = .up ∧ r.advert.cost < 4095 ∧ r.advert.nextHop ≠ c.address ∧ pathCostOf c r < c.cLimit := by
  simp [eligibleOf, and_assoc]

/-- A record holds the rate class and the costs that its other parts give (R104, R107 to R109). -/
def Record.rated (c : Settings) (r : Record) : Prop := r.trim.rUsed = rateUsed c r ∧ r.costed c = r

/-- A recomputation leaves nothing to recompute: the class reads no value written, and the costs read
the class written. -/
theorem rerated_rated (c : Settings) (r : Record) : (r.rerated c).rated c := ⟨rfl, rfl⟩

theorem rerated_of_rated {c : Settings} {r : Record} (h : r.rated c) : r.rerated c = r := by
  obtain ⟨hused, hcost⟩ := h
  rw [Record.rerated, ← hused]
  exact hcost

theorem costed_eq_self_iff (c : Settings) (r : Record) :
    r.costed c = r ↔ r.linkCost = linkCostOf c r ∧ r.pathCost = pathCostOf c r ∧ r.eligible = eligibleOf c r := by
  cases r
  simp [Record.costed, eq_comm]

/-- The drop counter that a sender's choice moves is in no cost. -/
theorem rated_uncounted (c : Settings) (r : Record) : r.uncounted.rated c ↔ r.rated c := by
  unfold Record.rated
  rw [costed_eq_self_iff, costed_eq_self_iff]
  rfl

/-! ## A recomputation on the state (R104, R110, R115) -/

/-- What a recomputation of a slot's record does, by whether the Path Selector's values changed. -/
theorem rerate_eq_ite {s : State} {i : Nat} {r : Record} (h : s.rec? i = some r) :
    s.rerate i =
      if (r.rerated s.cfg).pathCost = r.pathCost ∧ (r.rerated s.cfg).eligible = r.eligible then
        s.setSlot i (some (r.rerated s.cfg))
      else (s.setSlot i (some (r.rerated s.cfg))).reselect := by
  have hl := rec?_lt s h
  rw [State.rerate, modRec_eq s _ h, State.recost, rec?_setSlot s i i _ hl, if_pos rfl]
  simp only [setSlot_setSlot, setSlot_cfg]
  rfl

theorem rerate_of_rated {s : State} {i : Nat} {r : Record} (h : s.rec? i = some r) (hr : r.rated s.cfg) :
    s.rerate i = s := by
  rw [rerate_eq_ite h, rerated_of_rated hr, if_pos ⟨rfl, rfl⟩, setSlot_self s h]

theorem rerate_of_empty {s : State} {i : Nat} (h : s.rec? i = none) : s.rerate i = s := by
  simp [State.rerate, State.modRec, State.recost, h]

/-- Whatever record stands in a slot after its recomputation is rated. -/
theorem rated_of_rerate {s : State} {i : Nat} {r' : Record} (h : (s.rerate i).rec? i = some r') :
    r'.rated s.cfg := by
  cases hr : s.rec? i with
  | none => simp [rerate_of_empty hr, hr] at h
  | some r =>
    have hw : s.Rewritten (s.rerate i) i (r.rerated s.cfg) := rerate_eq s hr
    obtain ⟨hslots, -⟩ := hw.spec (rec?_lt s hr)
    rw [hslots i, if_pos rfl] at h
    cases h
    exact rerated_rated s.cfg r

/-- What ends a command leaves a rated record rated, though the sender's choice may have counted a drop on it. -/
theorem rated_of_ends {a b : State} (h : a.Ends b) {c : Settings} {i : Nat} {r' : Record}
    (ha : ∀ r, a.rec? i = some r → r.rated c) (hb : b.rec? i = some r') : r'.rated c := by
  have hslot := h.slot i
  rw [hb, Option.map_some, eq_comm, Option.map_eq_some_iff] at hslot
  obtain ⟨r, hr, heq⟩ := hslot
  rw [← rated_uncounted, ← heq, rated_uncounted]
  exact ha r hr

/-! ## The moments of a recomputation (R86, R93, R97, R100) -/

/-- An echo taken ends in a recomputation. -/
theorem takeEcho_ends_in_rerate {s : State} {i : Nat} {r : Record} (e : Nat) (h : s.rec? i = some r)
    (hup : r.link = .up) : ∃ u : State, u.cfg = s.cfg ∧ s.takeEcho i e = u.rerate i := by
  rw [State.takeEcho, h]
  dsimp only
  rw [if_pos hup]
  refine ⟨_, cfg_congr ?_, rfl⟩
  simp only [assessTrim_host, apply_ite State.host, endTrim_host, setSlot_host, ite_self]

/-- A change announced ends in a recomputation. -/
theorem announceFade_ends_in_rerate {s : State} {i : Nat} {r : Record} {was : Fade} (h : s.rec? i = some r)
    (hch : r.fade.state ≠ was.state ∨ r.fade.shadow ≠ was.shadow) :
    ∃ u : State, u.cfg = s.cfg ∧ s.announceFade i was = u.rerate i := by
  rw [State.announceFade, h]
  dsimp only
  rw [if_neg (not_and_or.mpr hch)]
  refine ⟨_, cfg_congr ?_, rfl⟩
  split <;> simp

/-- The end of a holdoff ends in a recomputation, before what ends every command. -/
theorem trimHoldoffExpiry_ends_in_rerate {s t : State} {i e : Nat} {r : Record} (h : s.rec? i = some r)
    (hreset : s.inReset = false) (hst : r.trim.state = .holdoff) (ht : r.trim.timer = some e) (he : e ≤ s.now)
    (hexec : exec (.trimHoldoffExpiry i) s = .next t) :
    ∃ u : State, u.cfg = s.cfg ∧ (u.rerate i).Ends t := by
  have hreached : reached r.trim.timer s.now = true := by simpa [reached, ht] using he
  rw [show exec (.trimHoldoffExpiry i) s = execTrimHoldoffExpiry i s from rfl, execTrimHoldoffExpiry,
    unlessReset_eq _ hreset, h] at hexec
  dsimp only at hexec
  rw [if_pos ⟨hst, hreached⟩] at hexec
  cases hexec
  exact ⟨_, cfg_congr (by simp), finish_ends _⟩

/-! ## The statement -/

/-- Settles O56: the class of one record from the lemmas on `rateClass` and `rateUsed`, its costs from those on
`Record.costed`; then the recomputation by its two branches, and each moment by the recomputation it ends in. -/
theorem rateClassAndCostsOfARecord : Obligations.RateClassAndCostsOfARecord := by
  unfold Obligations.RateClassAndCostsOfARecord
  constructor
  · intro c r K held
    have hheld : r.fade.state.held = true ↔ held := held_iff r.fade.state
    have hfall := rateUsed_le_rateClass c r
    refine ⟨rateUsed_of_no_echo, rateUsed_of_not_up, hfall.trans (rateClass_le_seven c r),
      fun m hm => hfall.trans (rateClass_le_ceiling hm), ?_, ?_, rfl, eligibleOf_iff c r, rfl,
      fun _ _ _ _ => rfl, fun _ => rfl, rfl⟩
    · intro e m he hm X need
      exact ⟨rateClass_le_seven c r, rateClass_le_ceiling hm, rateClass_met he hm,
        fun n h7 hceil _ hmet => le_rateClass he hm h7 hceil hmet,
        fun hup hf => rateUsed_of_held hup (hheld.mpr hf),
        fun hup hf => rateUsed_of_not_held hup (mt hheld.mp hf)⟩
    · show linkCostOf c r = _
      simp only [linkCostOf, hheld]
      rfl
  · intro s i r h r1 same
    refine ⟨fun hs => (rerate_eq_ite h).trans (if_pos hs), fun hs => (rerate_eq_ite h).trans (if_neg hs),
      fun hcost hused => rerate_of_rated h ⟨hused.symm, hcost⟩, ?_, ?_, ?_⟩
    · intro e r' hup hr'
      obtain ⟨u, hcfg, heq⟩ := takeEcho_ends_in_rerate e h hup
      exact hcfg ▸ rated_of_rerate (heq ▸ hr')
    · intro was r' hch hr'
      obtain ⟨u, hcfg, heq⟩ := announceFade_ends_in_rerate h hch
      exact hcfg ▸ rated_of_rerate (heq ▸ hr')
    · intro e t r' hreset hst ht he hexec hr'
      obtain ⟨u, hcfg, hends⟩ := trimHoldoffExpiry_ends_in_rerate h hreset hst ht he hexec
      exact rated_of_ends hends (fun q hq => hcfg ▸ rated_of_rerate hq) hr'

end Sys2Proof.Machine
end

