-- ==== Sys2Proof/Proofs/BestChoice.lean ====
section
/-! The best choice (R111): the order of the records by path cost and peer address, and the scan of the table, which
after each slot holds the best eligible record of the slots it has passed. -/

namespace Sys2Proof.Machine

/-! ## The order of the records -/

/-- `a` is at least as good a choice as `b`: less path cost, or a peer address no higher at the same cost. -/
def Record.noWorseThan (a b : Record) : Prop :=
  a.pathCost < b.pathCost ∨ a.pathCost = b.pathCost ∧ a.peer.toNat ≤ b.peer.toNat

theorem betterThan_iff (a b : Record) :
    a.betterThan b = true ↔ a.pathCost < b.pathCost ∨ a.pathCost = b.pathCost ∧ a.peer.toNat < b.peer.toNat := by
  simp [Record.betterThan]

theorem noWorseThan_refl (a : Record) : a.noWorseThan a := .inr ⟨rfl, Nat.le_refl _⟩

theorem noWorseThan_trans {a b c : Record} (hab : a.noWorseThan b) (hbc : b.noWorseThan c) : a.noWorseThan c := by
  unfold Record.noWorseThan at *
  omega

theorem noWorseThan_of_betterThan {a b : Record} (h : a.betterThan b = true) : a.noWorseThan b := by
  rw [betterThan_iff] at h
  unfold Record.noWorseThan
  omega

/-- The order is total: a record that is not better has the other no worse. -/
theorem noWorseThan_of_not_betterThan {a b : Record} (h : ¬a.betterThan b = true) : b.noWorseThan a := by
  rw [betterThan_iff] at h
  unfold Record.noWorseThan
  omega

/-! ## The scan of the table -/

/-- The best so far once the scan has met an eligible record `r` in slot `i`. -/
def challenge (i : Nat) (r : Record) : Option (Nat × Record) → Option (Nat × Record)
  | none => some (i, r)
  | some b => if r.betterThan b.2 then some (i, r) else some b

theorem bestFrom_empty_slot (rest : List (Option Record)) (i : Nat) (best : Option (Nat × Record)) :
    bestFrom (none :: rest) i best = bestFrom rest (i + 1) best := rfl

theorem bestFrom_of_not_eligible {r : Record} (h : ¬r.eligible = true) (rest : List (Option Record)) (i : Nat)
    (best : Option (Nat × Record)) : bestFrom (some r :: rest) i best = bestFrom rest (i + 1) best := by
  rw [bestFrom.eq_def]
  exact if_neg h

theorem bestFrom_of_eligible {r : Record} (h : r.eligible = true) (rest : List (Option Record)) (i : Nat)
    (best : Option (Nat × Record)) :
    bestFrom (some r :: rest) i best = bestFrom rest (i + 1) (challenge i r best) := by
  rw [bestFrom.eq_def]
  refine (if_pos h).trans ?_
  cases best <;> rfl

/-- What R111 says of a choice over the slots of a table: none has no record eligible, and a chosen record stands in
its slot, is eligible and has no better eligible one beside it. -/
def IsBestOf (slots : List (Option Record)) : Option (Nat × Record) → Prop
  | none => ∀ q, some q ∈ slots → q.eligible = false
  | some (i, r) => slots[i]? = some (some r) ∧ r.eligible = true ∧
      ∀ q, some q ∈ slots → q.eligible = true → r.noWorseThan q

theorem getElem?_concat_of_some {slots : List (Option Record)} {i : Nat} {r : Record} {o : Option Record}
    (h : slots[i]? = some (some r)) : (slots ++ [o])[i]? = some (some r) :=
  (List.getElem?_append_left (List.getElem?_eq_some_iff.mp h).1).trans h

/-- A slot that holds no eligible record leaves the best as it is. -/
theorem isBestOf_concat_of_no_candidate {slots : List (Option Record)} {best : Option (Nat × Record)}
    {o : Option Record} (h : IsBestOf slots best) (ho : ∀ q, o = some q → ¬q.eligible = true) :
    IsBestOf (slots ++ [o]) best := by
  have old : ∀ q, some q ∈ slots ++ [o] → q.eligible = true → some q ∈ slots := fun q hq he =>
    (List.mem_append.mp hq).resolve_right fun hlast => ho q (List.mem_singleton.mp hlast).symm he
  cases best with
  | none => exact fun q hq => Bool.eq_false_iff.mpr fun he => Bool.eq_false_iff.mp (h q (old q hq he)) he
  | some b =>
    obtain ⟨hslot, helig, hleast⟩ := h
    exact ⟨getElem?_concat_of_some hslot, helig, fun q hq he => hleast q (old q hq he) he⟩

/-- A slot that holds an eligible record has the better of it and the best so far. -/
theorem isBestOf_concat_challenge {slots : List (Option Record)} {best : Option (Nat × Record)} {r : Record}
    (h : IsBestOf slots best) (hr : r.eligible = true) :
    IsBestOf (slots ++ [some r]) (challenge slots.length r best) := by
  have earlier_or_last : ∀ q, some q ∈ slots ++ [some r] → some q ∈ slots ∨ q = r :=
    fun q hq => by simpa using hq
  have last : (slots ++ [some r])[slots.length]? = some (some r) := List.getElem?_concat_length
  cases best with
  | none =>
    refine ⟨last, hr, fun q hq he => ?_⟩
    obtain hold | rfl := earlier_or_last q hq
    · exact absurd he (Bool.eq_false_iff.mp (h q hold))
    · exact noWorseThan_refl q
  | some b =>
    obtain ⟨hslot, helig, hleast⟩ := h
    by_cases hb : r.betterThan b.2 = true
    · rw [challenge, if_pos hb]
      refine ⟨last, hr, fun q hq he => ?_⟩
      obtain hold | rfl := earlier_or_last q hq
      · exact noWorseThan_trans (noWorseThan_of_betterThan hb) (hleast q hold he)
      · exact noWorseThan_refl q
    · rw [challenge, if_neg hb]
      refine ⟨getElem?_concat_of_some hslot, helig, fun q hq he => ?_⟩
      obtain hold | rfl := earlier_or_last q hq
      · exact hleast q hold he
      · exact noWorseThan_of_not_betterThan hb

/-- The scan, begun with the best of the slots already passed, ends with the best of the whole table. -/
theorem bestFrom_isBestOf (rest : List (Option Record)) :
    ∀ {passed : List (Option Record)} {best : Option (Nat × Record)}, IsBestOf passed best →
      IsBestOf (passed ++ rest) (bestFrom rest passed.length best) := by
  induction rest with
  | nil => intro passed best h; simpa [bestFrom] using h
  | cons o rest ih =>
    intro passed best h
    rw [List.append_cons]
    have go {best'} (h' : IsBestOf (passed ++ [o]) best') :
        IsBestOf (passed ++ [o] ++ rest) (bestFrom rest (passed.length + 1) best') := by
      simpa only [List.length_append, List.length_singleton] using ih h'
    cases o with
    | none =>
      rw [bestFrom_empty_slot]
      exact go (isBestOf_concat_of_no_candidate h fun q hq => absurd hq.symm (Option.some_ne_none q))
    | some r =>
      by_cases hr : r.eligible = true
      · rw [bestFrom_of_eligible hr]
        exact go (isBestOf_concat_challenge h hr)
      · rw [bestFrom_of_not_eligible hr]
        exact go (isBestOf_concat_of_no_candidate h fun q hq => Option.some.inj hq ▸ hr)

theorem bestChoice_isBestOf (s : State) : IsBestOf s.slots s.bestChoice :=
  bestFrom_isBestOf (passed := []) (best := none) s.slots fun _ hq => absurd hq List.not_mem_nil

/-! ## The records by slot -/

theorem rec?_eq_some_iff (s : State) (i : Nat) (r : Record) : s.rec? i = some r ↔ s.slots[i]? = some (some r) :=
  Option.join_eq_some_iff

theorem mem_slots_iff (s : State) (q : Record) : some q ∈ s.slots ↔ ∃ j, s.rec? j = some q := by
  simp only [List.mem_iff_getElem?, rec?_eq_some_iff]

/-! ## The statement -/

/-- Settles O58: the scan's invariant read at the whole table, the slots named by number. -/
theorem bestChoiceIsTheCheapestEligible : Obligations.BestChoiceIsTheCheapestEligible := by
  unfold Obligations.BestChoiceIsTheCheapestEligible
  intro s
  have hbest := bestChoice_isBestOf s
  have mem : ∀ j q, s.rec? j = some q → some q ∈ s.slots := fun j q hq => (mem_slots_iff s q).mpr ⟨j, hq⟩
  constructor
  · intro i r h
    rw [h] at hbest
    obtain ⟨hslot, helig, hleast⟩ := hbest
    exact ⟨(rec?_eq_some_iff s i r).mpr hslot, helig, fun j q hq he => hleast q (mem j q hq) he⟩
  · constructor
    · intro h j q hq
      rw [h] at hbest
      exact hbest q (mem j q hq)
    · intro hnone
      cases h : s.bestChoice with
      | none => rfl
      | some b =>
        rw [h] at hbest
        obtain ⟨hslot, helig, -⟩ := hbest
        exact absurd helig (Bool.eq_false_iff.mp (hnone b.1 b.2 ((rec?_eq_some_iff s b.1 b.2).mpr hslot)))

end Sys2Proof.Machine
end

/-! The attention line (R168). What ends a command drives the line by its condition, and a reset gives it the value its
condition then has; every other change leaves the line, the reset line, the report queue and the delivery ring as they
were. Between them these are every case of `exec`. -/

namespace Sys2Proof.Machine

/-! ## The condition and what carries it -/

theorem attention_iff (s : State) : s.attention = true ↔ s.inReset = false ∧ (s.reports ≠ [] ∨ s.ring ≠ []) := by
  simp [State.attention]

theorem setAttention_attnInv (s : State) : s.setAttention.AttnInv := setAttention_line s

theorem finish_attnInv (s : State) : s.finish.AttnInv := (finish_ends s).attn

/-- A change of other parts leaves the line right. -/
theorem attnInv_congr {a b : State} (hline : b.attnLow = a.attnLow) (hreset : b.inReset = a.inReset)
    (hreports : b.reports = a.reports) (hring : b.ring = a.ring) : b.AttnInv ↔ a.AttnInv := by
  simp only [State.AttnInv, State.attention, hline, hreset, hreports, hring]

section
variable {s : State}

theorem withPort_attnInv (t : Transaction) (out : Byte) : (s.withPort t out).AttnInv ↔ s.AttnInv :=
  attnInv_congr rfl rfl rfl rfl

theorem closePort_attnInv : s.closePort.AttnInv ↔ s.AttnInv := attnInv_congr rfl rfl rfl rfl

theorem latest_attnInv (l : Option (Byte × Status)) : State.AttnInv { s with latest := l } ↔ s.AttnInv :=
  attnInv_congr rfl rfl rfl rfl

theorem setSlot_attnInv (i : Nat) (o : Option Record) : (s.setSlot i o).AttnInv ↔ s.AttnInv :=
  attnInv_congr rfl rfl rfl rfl

theorem carrier_attnInv (c : Bool) : State.AttnInv { s with carrier := c } ↔ s.AttnInv :=
  attnInv_congr rfl rfl rfl rfl

theorem pending_attnInv (q : List Instr) : State.AttnInv { s with pending := q } ↔ s.AttnInv :=
  attnInv_congr rfl rfl rfl rfl

theorem tick_attnInv : s.tick.AttnInv ↔ s.AttnInv := attnInv_congr rfl rfl rfl rfl

end

theorem resetWith_attnInv (cause : ResetCause) (s : State) : (s.resetWith cause).AttnInv := rfl

theorem attnInv_ite {p : Prop} [Decidable p] {a b : State} (ha : a.AttnInv) (hb : b.AttnInv) :
    (if p then a else b).AttnInv := by
  split
  · exact ha
  · exact hb

/-! ## Effects and meanings that keep the line -/

/-- A meaning keeps the line right. -/
def KeepsLine (f : State → Host.Outcome State Fault Refusal) : Prop :=
  ∀ s t : State, s.AttnInv → f s = .next t → t.AttnInv

theorem keepsLine_next {g : State → State} (hg : ∀ s : State, s.AttnInv → (g s).AttnInv) :
    KeepsLine fun s => .next (g s) := by
  intro s t hs h
  cases h
  exact hg s hs

theorem unlessReset_keepsLine {g : State → State} (hg : ∀ s : State, s.AttnInv → (g s).AttnInv) :
    KeepsLine (State.unlessReset g) :=
  keepsLine_next fun s hs => attnInv_ite hs (hg s hs)

/-- An event that ends as every command does where its condition holds, and is without effect elsewhere. -/
theorem unlessReset_finish_keepsLine {p : State → Prop} [DecidablePred p] {g : State → State} :
    KeepsLine (State.unlessReset fun s => if p s then (g s).finish else s) :=
  unlessReset_keepsLine fun s hs => attnInv_ite (finish_attnInv (g s)) hs

/-- A host command's effect keeps the line right. -/
def EffectKeepsLine (effect : Transaction → State → Status × State) : Prop :=
  ∀ (p : Transaction) (s : State), s.AttnInv → (effect p s).2.AttnInv

/-- A host command whose effect keeps the line right: the port's closing and the record of the command do not bear on
it. -/
theorem takeCommand_keepsLine {code : Byte} {effect : Transaction → State → Status × State}
    (he : EffectKeepsLine effect) :
    KeepsLine (State.unlessReset (State.takeCommand code effect)) := by
  refine unlessReset_keepsLine fun s hs => ?_
  unfold State.takeCommand
  split
  · exact hs
  · exact attnInv_ite ((latest_attnInv _).mpr (he _ _ (closePort_attnInv.mpr hs))) hs

/-! ## Resets (R169) -/

theorem resetLineAsserted_keepsLine : KeepsLine execResetLineAsserted := unlessReset_keepsLine fun _ _ => rfl

theorem resetLineReleased_keepsLine : KeepsLine execResetLineReleased :=
  keepsLine_next fun s hs => attnInv_ite (resetWith_attnInv .pin s) hs

theorem reset_keepsLine : KeepsLine execReset := by
  refine unlessReset_keepsLine fun s hs => ?_
  split
  · exact hs
  · exact attnInv_ite (resetWith_attnInv .command s) hs

/-! ## The port (R159, R160) -/

section
variable {s : State} (hs : s.AttnInv)
include hs

theorem shiftCommand_attnInv (data : Byte) (t : Transaction) : (s.shiftCommand data t).AttnInv := by
  unfold State.shiftCommand
  split <;> exact (withPort_attnInv _ _).mpr hs

/-- The buffer a SEND takes does not bear on the line. -/
theorem sendLengthComplete_attnInv (t : Transaction) : (s.sendLengthComplete t).AttnInv := by
  have htaken : (if s.judgeSend t.args = .ok then { s with free := s.free - 1 } else s).AttnInv :=
    attnInv_ite ((attnInv_congr rfl rfl rfl rfl).mpr hs) hs
  exact attnInv_ite ((withPort_attnInv _ _).mpr htaken) ((withPort_attnInv _ _).mpr htaken)

theorem shiftArgument_attnInv (data : Byte) (t : Transaction) : (s.shiftArgument data t).AttnInv := by
  have hport : ∀ t' : Transaction, (s.withPort t' 0).AttnInv := fun t' => (withPort_attnInv t' 0).mpr hs
  exact attnInv_ite (hport _) (attnInv_ite (hport _) (attnInv_ite (sendLengthComplete_attnInv hs _) (hport _)))

theorem shiftResult_attnInv (t : Transaction) : (s.shiftResult t).AttnInv := by
  have hport : ∀ (t' : Transaction) (out : Byte), (s.withPort t' out).AttnInv :=
    fun t' out => (withPort_attnInv t' out).mpr hs
  refine attnInv_ite (hport _ _) ?_
  split
  · exact hport _ _
  · exact attnInv_ite (hport _ _) (hport _ _)

theorem shiftByte_attnInv (data : Byte) : (s.shiftByte data).AttnInv := by
  unfold State.shiftByte
  split
  · exact hs
  · split
    · exact shiftCommand_attnInv hs data _
    · exact shiftArgument_attnInv hs data _
    · exact shiftResult_attnInv hs _
    · exact (withPort_attnInv _ _).mpr hs

end

theorem transactionBegun_keepsLine : KeepsLine execTransactionBegun :=
  unlessReset_keepsLine fun _ hs => attnInv_ite ((withPort_attnInv _ _).mpr hs) hs

theorem portByteShifted_keepsLine (data : Byte) : KeepsLine (execPortByteShifted data) :=
  unlessReset_keepsLine fun _ hs => shiftByte_attnInv hs data

theorem transactionCutShort_keepsLine : KeepsLine execTransactionCutShort := by
  refine unlessReset_keepsLine fun s hs => ?_
  split
  · exact hs
  · exact attnInv_ite hs (finish_attnInv _)

theorem unknownCommand_keepsLine : KeepsLine execUnknownCommand := by
  refine unlessReset_keepsLine fun s hs => ?_
  split
  · exact hs
  · exact attnInv_ite (closePort_attnInv.mpr hs) hs

/-! ## Host commands at the rise of select (R160) -/

theorem loadSettingsEffect_keepsLine : EffectKeepsLine loadSettingsEffect := by
  intro p s hs
  unfold loadSettingsEffect
  dsimp only
  split
  · exact (attnInv_congr rfl rfl rfl rfl).mpr hs
  · exact hs

theorem stopEffect_keepsLine : EffectKeepsLine stopEffect := by
  intro p s hs
  unfold stopEffect
  cases s.station with
  | unconfigured => exact hs
  | ready => exact hs
  | acquiring => exact setAttention_attnInv _
  | onAir => exact setAttention_attnInv _

theorem takeFrameEffect_keepsLine : EffectKeepsLine takeFrameEffect := by
  intro p s hs
  unfold takeFrameEffect
  dsimp only
  split
  · exact hs
  · split
    · exact finish_attnInv _
    · exact hs

theorem takeReportsEffect_keepsLine : EffectKeepsLine takeReportsEffect := fun _ _ _ => setAttention_attnInv _

theorem checkFreezeEffect_keepsLine : EffectKeepsLine checkFreezeEffect := by
  intro p s hs
  unfold checkFreezeEffect
  split
  · exact hs
  · exact (attnInv_congr rfl rfl rfl rfl).mpr hs

/-! ## Events -/

/-- The carrier is the world's: a part held in reset keeps it too, and nothing else moves (R169). -/
theorem mediumBusyChange_keepsLine (carrier : Bool) : KeepsLine (execMediumBusyChange carrier) :=
  keepsLine_next fun _ hs =>
    attnInv_ite ((carrier_attnInv carrier).mpr hs) (attnInv_ite hs (finish_attnInv _))

theorem headerReceived_keepsLine (header : List Byte) (raw : Int) : KeepsLine (execHeaderReceived header raw) := by
  refine unlessReset_keepsLine fun s hs => attnInv_ite ?_ hs
  split <;> exact finish_attnInv _

theorem settleExpiry_keepsLine (slot : Nat) : KeepsLine (execSettleExpiry slot) := by
  refine unlessReset_keepsLine fun s hs => ?_
  split
  · split
    · exact attnInv_ite (finish_attnInv _) hs
    · exact hs
  · exact hs

theorem peerWindowEnd_keepsLine (slot : Nat) : KeepsLine (execPeerWindowEnd slot) := by
  refine unlessReset_keepsLine fun s hs => ?_
  split
  · exact attnInv_ite ((setSlot_attnInv _ _).mpr hs) hs
  · exact hs

/-! ## Every command -/

theorem exec_keepsLine (c : Instr) : KeepsLine (exec c) := by
  cases c with
  | powerOn => exact keepsLine_next fun s _ => resetWith_attnInv .power s
  | resetLineAsserted => exact resetLineAsserted_keepsLine
  | resetLineReleased => exact resetLineReleased_keepsLine
  | reset => exact reset_keepsLine
  | transactionBegun => exact transactionBegun_keepsLine
  | portByteShifted data => exact portByteShifted_keepsLine data
  | transactionCutShort => exact transactionCutShort_keepsLine
  | unknownCommand => exact unknownCommand_keepsLine
  | readSettings | readNeighbours | readStation | checkRead => exact takeCommand_keepsLine fun _ _ hs => hs
  | loadSettings => exact takeCommand_keepsLine loadSettingsEffect_keepsLine
  | stop => exact takeCommand_keepsLine stopEffect_keepsLine
  | takeFrame => exact takeCommand_keepsLine takeFrameEffect_keepsLine
  | takeReports => exact takeCommand_keepsLine takeReportsEffect_keepsLine
  | checkStop => exact takeCommand_keepsLine fun _ _ _ => finish_attnInv _
  | checkFreeze => exact takeCommand_keepsLine checkFreezeEffect_keepsLine
  -- Commands that are refused, or end as every command does.
  | start | send | reseed | forget | checkStart =>
    refine takeCommand_keepsLine fun p s hs => ?_
    simp only [startEffect, sendEffect, reseedEffect, forgetEffect, checkStartEffect]
    split
    · exact finish_attnInv _
    · exact hs
  | mediumBusyChange carrier => exact mediumBusyChange_keepsLine carrier
  | headerReceived header raw => exact headerReceived_keepsLine header raw
  | settleExpiry slot => exact settleExpiry_keepsLine slot
  | peerWindowEnd slot => exact peerWindowEnd_keepsLine slot
  -- Events with one condition on the state.
  | syncWordFound | headerAbandoned | frameTruncated | guardGapComplete | backoffSlotEnd | ackWaitExpiry
  | routeAgeExpiry | acquisitionExpiry | stepDownExpiry | listenPeriodEnd =>
    exact unlessReset_finish_keepsLine
  -- Events of what may not be there: a record, a queued frame, a frame under way, an ACK, a timer of the station.
  | silenceLimitReached | aged | initiationWaitExpiry | exchangeTimeout | offerHoldoffExpiry | briefExpiry
  | settleTimeout | trimHoldoffExpiry | waitLimitExpiry | frameEnd | discardEnd | transmissionEnd | shortGapExpiry
  | ackTransmissionEnd | beaconDue | checkPaceExpiry | reflectTimeout =>
    refine unlessReset_keepsLine fun s hs => ?_
    split
    · exact attnInv_ite (finish_attnInv _) hs
    · exact hs

/-! ## The statement -/

theorem step_attnInv {s t : State} (hs : s.AttnInv) (h : step s = .next t) : t.AttnInv := by
  unfold step at h
  split at h
  · cases h
    exact tick_attnInv.mpr hs
  · exact exec_keepsLine _ _ t ((pending_attnInv _).mpr hs) h

/-- Settles O9: the invariant goes through `exec` command by command; the condition is read off its definition. -/
theorem stepKeepsAttentionLine : Obligations.StepKeepsAttentionLine :=
  ⟨fun _ _ => step_attnInv, attention_iff⟩

end Sys2Proof.Machine


/-! What a command can do to the table, the queues and the route, said once: every shared operation is a chain of a few
moves, each with the conditions under which the model makes it. An invariant of every step then goes through the moves
alone. -/

namespace Sys2Proof.Machine

/-! ## The changes of a record -/

/-- A record without the parts that no rule of the table's bounds (R25), of the measured range (R65) or of the route
(R104 to R115) reads. -/
def Record.bearing (r : Record) : Record :=
  { r with lastHeard := 0, silence := 0, windowEnd := none, notEchoed := 0, exch := none, holdoff := none,
           initWait := none, failStreak := 0, hopDrops := 0, loopDrops := 0, pathDrops := 0,
           fade := { Fade.none with state := r.fade.state, shadow := r.fade.shadow },
           trim := { r.trim with state := .idle, count := 0, timer := none, clamped := false, last := none } }

/-- A change of a record in the parts no such rule reads, that gives it no exchange part. -/
def Record.Alike (r r' : Record) : Prop := r'.bearing = r.bearing ∧ (r'.exch.isSome = true → r.exch.isSome = true)

/-- The record `r` of slot `i` may become `r'`: its peer stays, it becomes UP only where fewer than 12 are, it stays in
range and consistent, and while a return path leads through it, it stays UP. -/
structure Record.Follows (s : State) (i : Nat) (r r' : Record) : Prop where
  peer    : r'.peer = r.peer
  up      : r'.link = .up → r.link = .up ∨ s.upCount < 12
  range   : s.cfg.filterOk → r.inRange → r'.inRange
  derived : r.consistent s.cfg → r'.consistent s.cfg
  paths   : r.consistent s.cfg → r.link = .up → r'.link = .up ∨ ∀ p ∈ s.paths, p.via ≠ i

/-- A record's change that the Path Selector does not notice (R110). -/
def Record.SameRoute (c : Settings) (r r' : Record) : Prop :=
  r.consistent c → r'.pathCost = r.pathCost ∧ r'.eligible = r.eligible

/-! ## The moves -/

/-- One move of a command. Under `air` a frame from the air is at work: a record may be admitted (R26), and the receiver
is on. -/
inductive State.Move (air : Prop) : State → State → Prop
  | aside (s : State) (draws serial : Nat) (work attn : Bool) (tx : Sender) (duty : Duty) (check : Checker) :
    Move air s { s with draws := draws, serial := serial, workAvailable := work, attnLow := attn, tx := tx, duty := duty,
                        check := check }
  | report (s : State) (a : Addr) (slot : Option Nat) (body : ReportBody) : Move air s (s.putReport a slot body)
  | receiver (s : State) (rx : Receiver) (free : Nat)
      (h : rx.state = .off ∨ rx.state = s.rx.state ∨ s.operating = true ∨ air) :
    Move air s { s with rx := rx, free := free }
  | queue (s : State) (fwd : List Entry) (hlen : fwd.length ≤ s.fwd.length)
      (hhost : (fwd.countP fun e => e.tag.isSome) ≤ s.hostShare) : Move air s { s with fwd := fwd }
  | transit (s : State) (e : Entry) (hplace : s.placesTaken < 40) (htag : e.tag = none) :
    Move air s { s with fwd := s.fwd ++ [e] }
  | delivered (s : State) (d : Delivery) (h : s.ring.length < 12) : Move air s { s with ring := s.ring ++ [d] }
  | noted (s : State) (p : Addr × Word16) : Move air s { s with seen := seenInsert p s.seen }
  | pathsGo (s : State) (paths : List ReturnPath) (h : paths.Sublist s.paths) : Move air s { s with paths := paths }
  | learned (s : State) (i : Nat) (r : Record) (origin : Addr) (now : Nat) (h : s.rec? i = some r)
      (hup : r.link = .up) : Move air s { s with paths := learnPath origin i now s.paths }
  | edited (s : State) (i : Nat) (r r' : Record) (h : s.rec? i = some r) (hf : r.Follows s i r')
      (hsame : r.SameRoute s.cfg r') : Move air s (s.setSlot i (some r'))
  | reseated (s : State) (i : Nat) (r r' : Record) (h : s.rec? i = some r) (hf : r.Follows s i r') :
    Move air s (s.setSlot i (some r')).reselect
  | removed (s : State) (i : Nat) (r : Record) (h : s.rec? i = some r)
      (hpaths : r.link = .up → ∀ p ∈ s.paths, p.via ≠ i) : Move air s (s.setSlot i none).reselect
  | admitted (s : State) (i : Nat) (r : Record) (hair : air) (h : s.rec? i = none) (hslot : i < s.slots.length)
      (hnew : s.findPeer r.peer = none) (hlink : r.link = .heard) (hrange : r.inRange)
      (hderived : r.consistent s.cfg) : Move air s (s.setSlot i (some r))

/-- A chain of moves. -/
def State.Moves (air : Prop) : State → State → Prop := Relation.ReflTransGen (State.Move air)

section
variable {air : Prop} {s t u : State}

theorem State.Moves.refl (s : State) : State.Moves air s s := Relation.ReflTransGen.refl

theorem State.Moves.trans (h1 : State.Moves air s t) (h2 : State.Moves air t u) : State.Moves air s u :=
  Relation.ReflTransGen.trans h1 h2

theorem State.Move.moves (h : State.Move air s t) : State.Moves air s t := .single h

/-- What every move keeps, every chain of moves keeps. -/
theorem State.Moves.keeps {P : State → Prop} (hP : ∀ a b, State.Move air a b → P a → P b) (h : State.Moves air s t)
    (hs : P s) : P t := by
  induction h with
  | refl => exact hs
  | tail _ hm ih => exact hP _ _ hm ih

theorem State.Moves.ite {p : Prop} [Decidable p] (h1 : p → State.Moves air s t) (h2 : ¬p → State.Moves air s u) :
    State.Moves air s (if p then t else u) := by
  split
  · exact h1 ‹_›
  · exact h2 ‹_›

end

/-! ## What a move keeps of a record -/

theorem consistent_iff (c : Settings) (r : Record) : r.consistent c ↔
    r.linkCost = linkCostOf c r ∧ r.pathCost = pathCostOf c r ∧ r.eligible = eligibleOf c r ∧
      r.trim.rUsed = rateUsed c r ∧ (r.exch.isSome = true → r.link = .offering) := by
  rw [Record.consistent, costed_eq_self_iff]
  tauto

section
variable {r r' : Record} (h : r.Alike r')
include h

/-- What is read of the bearing parts alone is the same of both. -/
theorem Record.Alike.part {α : Type} (f : Record → α) (hf : ∀ q : Record, f q.bearing = f q) : f r' = f r := by
  rw [← hf r', h.1, hf r]

theorem Record.Alike.link : r'.link = r.link := h.part Record.link fun _ => rfl

/-- The rules of the route read the bearing parts alone. -/
theorem Record.Alike.consistent {c : Settings} (hr : r.consistent c) : r'.consistent c := by
  rw [consistent_iff] at hr ⊢
  obtain ⟨hlink, hpath, helig, hused, hexch⟩ := hr
  rw [h.part Record.linkCost fun _ => rfl, h.part Record.pathCost fun _ => rfl, h.part Record.eligible fun _ => rfl,
    h.part (fun q => q.trim.rUsed) fun _ => rfl, h.part (linkCostOf c) fun _ => rfl,
    h.part (pathCostOf c) fun _ => rfl, h.part (eligibleOf c) fun _ => rfl, h.part (rateUsed c) fun _ => rfl, h.link]
  exact ⟨hlink, hpath, helig, hused, fun hs => hexch (h.2 hs)⟩

theorem Record.Alike.inRange (hr : r.inRange) : r'.inRange := by
  simpa only [Record.inRange, h.part Record.F fun _ => rfl, h.part Record.L fun _ => rfl] using hr

theorem Record.Alike.follows (s : State) (i : Nat) : r.Follows s i r' where
  peer := h.part Record.peer fun _ => rfl
  up hup := .inl (h.link.symm.trans hup)
  range _ := h.inRange
  derived := h.consistent
  paths _ hup := .inl (h.link.trans hup)

theorem Record.Alike.sameRoute (c : Settings) : r.SameRoute c r' :=
  fun _ => ⟨h.part Record.pathCost fun _ => rfl, h.part Record.eligible fun _ => rfl⟩

end

/-! ## Chains for the shared operations -/

section
variable {air : Prop} (s : State)

theorem aside_moves (draws serial : Nat) (work attn : Bool) (tx : Sender) (duty : Duty) (check : Checker) :
    State.Moves air s { s with draws := draws, serial := serial, workAvailable := work, attnLow := attn, tx := tx,
                               duty := duty, check := check } :=
  (State.Move.aside s draws serial work attn tx duty check).moves

/-- A change of the parts that bear on no bound and no route. -/
theorem State.Moves.aside {s t u : State} (h : State.Moves air s t)
    (he : u = { t with draws := u.draws, serial := u.serial, workAvailable := u.workAvailable, attnLow := u.attnLow,
                       tx := u.tx, duty := u.duty, check := u.check }) : State.Moves air s u := by
  rw [he]
  exact h.trans (aside_moves t _ _ _ _ _ _ _)

theorem noteWork_moves : State.Moves air s s.noteWork := (State.Moves.refl s).aside rfl

theorem drawBelow_moves (n : Nat) : State.Moves air s (s.drawBelow n).2 := (State.Moves.refl s).aside rfl

theorem putReport_moves (a : Addr) (slot : Option Nat) (body : ReportBody) :
    State.Moves air s (s.putReport a slot body) := (State.Move.report s a slot body).moves

theorem edit_moves {i : Nat} {r r' : Record} (h : s.rec? i = some r) (ha : r.Alike r') :
    State.Moves air s (s.setSlot i (some r')) :=
  (State.Move.edited s i r r' h (ha.follows s i) (ha.sameRoute _)).moves

theorem modRec_moves (i : Nat) {f : Record → Record} (hf : ∀ r : Record, r.Alike (f r)) : State.Moves air s (s.modRec i f) := by
  unfold State.modRec
  split
  · exact edit_moves s ‹_› (hf _)
  · exact .refl s

/-- A change of the receiver and the pool that does not turn the receiver on. -/
theorem State.Moves.receiver {s t u : State} (h : State.Moves air s t)
    (he : u = { t with rx := u.rx, free := u.free })
    (hrx : u.rx.state = .off ∨ u.rx.state = t.rx.state ∨ t.operating = true ∨ air) : State.Moves air s u := by
  rw [he]
  exact h.trans (State.Move.receiver t u.rx u.free hrx).moves

theorem returnBuffer_moves : State.Moves air s s.returnBuffer :=
  .ite (fun _ => (State.Moves.refl s).receiver rfl (.inr (.inl rfl)))
    (fun _ => (State.Moves.refl s).receiver rfl (.inr (.inl rfl)))

theorem receiverTakes_moves : State.Moves air s s.receiverTakes :=
  .ite (fun _ => .refl s)
    (fun _ => .ite (fun _ => (State.Moves.refl s).receiver rfl (.inr (.inl rfl)))
      (fun _ => (State.Moves.refl s).receiver rfl (.inr (.inl rfl))))

end

/-! ## A record's change with what follows it -/

/-- A report does not read the table. -/
theorem putReport_setSlot (s : State) (i : Nat) (o : Option Record) (a : Addr) (slot : Option Nat) (body : ReportBody) :
    (s.setSlot i o).putReport a slot body = (s.putReport a slot body).setSlot i o := by
  unfold State.putReport
  rw [setSlot_reports, show (s.setSlot i o).serial = s.serial from rfl]
  cases overwrite a slot body s.serial s.reports with
  | some q => rfl
  | none =>
    dsimp only
    by_cases h : s.reports.length < 32
    · rw [if_pos h, if_pos h]; rfl
    · rw [if_neg h, if_neg h]; rfl

theorem putReport_rec? (s : State) (a : Addr) (slot : Option Nat) (body : ReportBody) (i : Nat) :
    (s.putReport a slot body).rec? i = s.rec? i := rec?_congr (putReport_slots s a slot body) i

theorem putReport_paths (s : State) (a : Addr) (slot : Option Nat) (body : ReportBody) :
    (s.putReport a slot body).paths = s.paths := by
  obtain ⟨q, o, n, d, h⟩ := putReport_eq s a slot body
  rw [h]

/-- What `Follows` reads of the state. -/
theorem Record.Follows.congr {a b : State} {i : Nat} {r r' : Record} (h : r.Follows a i r') (hslots : b.slots = a.slots)
    (hhost : b.host = a.host) (hpaths : ∀ p ∈ b.paths, p ∈ a.paths) : r.Follows b i r' := by
  have hcfg : b.cfg = a.cfg := cfg_congr hhost
  have hcount : b.upCount = a.upCount := congrArg (List.countP isUp) hslots
  exact ⟨h.peer, hcount ▸ h.up, hcfg ▸ h.range, hcfg ▸ h.derived, fun hc hup =>
    (h.paths (hcfg ▸ hc) hup).imp_right fun hn p hp => hn p (hpaths p hp)⟩

end Sys2Proof.Machine


namespace Sys2Proof.Machine

/-- A record after changes that leave its peer, its link and its costs, and give it no exchange part. -/
structure Record.SameLink (c : Settings) (r r' : Record) : Prop where
  peer  : r'.peer = r.peer
  link  : r'.link = r.link
  exch  : r'.exch.isSome = true → r.exch.isSome = true
  cost  : r'.pathCost = r.pathCost
  elig  : r'.eligible = r.eligible
  range : c.filterOk → r.inRange → r'.inRange

section
variable {air : Prop} {s : State} {i : Nat} {r r1 : Record}

/-- A record rerated is consistent, whatever it was. -/
theorem Record.SameLink.rerated_follows {c : Settings} (h : r.SameLink c r1) (hc : s.cfg = c) :
    r.Follows s i (r1.rerated c) := by
  subst hc
  refine ⟨h.peer, fun hup => .inl (h.link.symm.trans hup), h.range, fun hr => ?_,
    fun _ hup => .inl (h.link.trans hup)⟩
  exact ⟨(rerated_rated _ _).2, (rerated_rated _ _).1, fun hx => h.link.trans (hr.2.2 (h.exch hx))⟩

theorem rerate_moves (h : s.rec? i = some r) (hk : r.SameLink s.cfg r1) :
    State.Moves air s ((s.setSlot i (some r1)).rerate i) := by
  have hslot : (s.setSlot i (some r1)).rec? i = some r1 := by rw [rec?_setSlot s i i _ (rec?_lt s h), if_pos rfl]
  rw [rerate_eq_ite hslot, setSlot_setSlot, setSlot_cfg]
  have hf : r.Follows s i (r1.rerated s.cfg) := hk.rerated_follows rfl
  exact .ite
    (fun hsame => (State.Move.edited s i r _ h hf fun _ => ⟨hsame.1.trans hk.cost, hsame.2.trans hk.elig⟩).moves)
    (fun _ => (State.Move.reseated s i r _ h hf).moves)

theorem recost_moves (h : s.rec? i = some r) (hf : r.Follows s i (r1.costed s.cfg)) (hp : r1.pathCost = r.pathCost)
    (he : r1.eligible = r.eligible) : State.Moves air s ((s.setSlot i (some r1)).recost i) := by
  have hslot : (s.setSlot i (some r1)).rec? i = some r1 := by rw [rec?_setSlot s i i _ (rec?_lt s h), if_pos rfl]
  rcases recost_eq _ hslot with ⟨hs, hp', he'⟩ | hs
  · rw [hs, setSlot_setSlot]
    exact (State.Move.edited s i r _ h hf fun _ => ⟨hp'.trans hp, he'.trans he⟩).moves
  · rw [hs, setSlot_setSlot]
    exact (State.Move.reseated s i r _ h hf).moves

/-- A trim assessed and the record rerated (R96, R104). -/
theorem assessTrim_rerate_moves (h : s.rec? i = some r) (hk : r.SameLink s.cfg r1) :
    State.Moves air s (((s.setSlot i (some r1)).assessTrim i).rerate i) := by
  have hslot : (s.setSlot i (some r1)).rec? i = some r1 := by rw [rec?_setSlot s i i _ (rec?_lt s h), if_pos rfl]
  rw [assessTrim_eq _ hslot, setSlot_setSlot]
  refine rerate_moves h ?_
  split
  · exact ⟨hk.peer, hk.link, hk.exch, hk.cost, hk.elig, hk.range⟩
  · exact hk

/-- A change of a record announced (R86): where fade state and shadow flag are as they were the record must be
consistent of itself. -/
theorem announceFade_moves (was : Fade) (h : s.rec? i = some r) (hk : r.SameLink s.cfg r1)
    (hsame : r1.fade.state = was.state → r1.fade.shadow = was.shadow → r.consistent s.cfg → r1.consistent s.cfg) :
    State.Moves air s ((s.setSlot i (some r1)).announceFade i was) := by
  have hslot : (s.setSlot i (some r1)).rec? i = some r1 := by rw [rec?_setSlot s i i _ (rec?_lt s h), if_pos rfl]
  rw [State.announceFade, hslot]
  dsimp only
  split
  · rename_i hf
    have hfol : r.Follows s i r1 :=
      ⟨hk.peer, fun hup => .inl (hk.link.symm.trans hup), hk.range, hsame hf.1 hf.2,
        fun _ hup => .inl (hk.link.trans hup)⟩
    exact (State.Move.edited s i r r1 h hfol fun _ => ⟨hk.cost, hk.elig⟩).moves
  · split
    · exact assessTrim_rerate_moves h hk
    · exact rerate_moves h hk

theorem consistent_of_fade {c : Settings} {F L : Int} {f : Fade} (hs : f.state = r.fade.state)
    (hsh : f.shadow = r.fade.shadow) (hr : r.consistent c) : Record.consistent c { r with F := F, L := L, fade := f } := by
  rw [consistent_iff] at hr ⊢
  simp only [linkCostOf, pathCostOf, eligibleOf, rateUsed, rateClass, hs, hsh] at hr ⊢
  exact hr

end

/-! ## A measurement stays in range (R65) -/

theorem forcedStep_nonneg {g d : Int} (hg : 0 ≤ g) (hg' : g ≤ 256) (hd : 0 ≤ d) :
    0 ≤ forcedStep g d ∧ forcedStep g d ≤ d := by
  unfold forcedStep
  have h0 : 0 ≤ g * d := Int.mul_nonneg hg hd
  have hq : Int.tdiv (g * d) 256 = (g * d) / 256 := Int.tdiv_eq_ediv_of_nonneg h0
  have hle : g * d ≤ 256 * d := Int.mul_le_mul_of_nonneg_right hg' hd
  split
  · rcases hd.lt_or_eq with h | h
    · rw [Int.sign_eq_one_of_pos h]; omega
    · subst h; simp
  · rw [hq]; omega

theorem forcedStep_neg (g d : Int) : forcedStep g (-d) = -forcedStep g d := by
  simp only [forcedStep, mul_neg, Int.neg_tdiv, neg_eq_zero, Int.sign_neg]
  split <;> rfl

/-- A step of a gain of at most 256/256 leads from a value toward its target and not past it. -/
theorem forcedStep_between {g a b : Int} (hg : 0 ≤ g) (hg' : g ≤ 256) :
    min a b ≤ a + forcedStep g (b - a) ∧ a + forcedStep g (b - a) ≤ max a b := by
  rcases le_total a b with h | h
  · have := forcedStep_nonneg hg hg' (Int.sub_nonneg_of_le h)
    omega
  · have := forcedStep_nonneg hg hg' (Int.sub_nonneg_of_le h)
    rw [← neg_sub a b, forcedStep_neg]
    omega

theorem filterGain_bounds {c : Settings} (hc : c.filterOk) (speed : Int) :
    1 ≤ filterGain c speed ∧ filterGain c speed ≤ 256 := by
  obtain ⟨hlow, hhigh, hlt, -, -⟩ := hc
  rcases le_or_gt speed c.sLo with h | h
  · rw [filterGain_of_slow h]; omega
  · rcases lt_or_ge speed c.sHi with h' | h'
    · rw [filterGain_of_between h h']
      have hw : (0 : Int) < c.sHi - c.sLo := by omega
      have hnn : 0 ≤ (256 - (c.bSlow : Int)) * (speed - c.sLo) := Int.mul_nonneg (by omega) (by omega)
      have hle : (256 - (c.bSlow : Int)) * (speed - c.sLo) ≤ (256 - (c.bSlow : Int)) * (c.sHi - c.sLo) :=
        Int.mul_le_mul_of_nonneg_left (by omega) (by omega)
      rw [Int.tdiv_eq_ediv_of_nonneg hnn]
      have hq := Int.ediv_le_of_le_mul hw hle
      have hq0 := Int.ediv_nonneg hnn hw.le
      omega
    · rw [filterGain_of_fast h h']; omega

theorem filterStep_between {c : Settings} (hc : c.filterOk) (F : Int) (m : Nat) :
    min F (16 * m) ≤ filterStep c F m ∧ filterStep c F m ≤ max F (16 * m) := by
  have hg := filterGain_bounds hc (Int.tdiv |16 * (m : Int) - F| 16)
  exact forcedStep_between (by omega) hg.2

theorem baselineStep_between {c : Settings} (hc : c.filterOk) (F L : Int) :
    min L F ≤ baselineStep c F L ∧ baselineStep c F L ≤ max L F := by
  obtain ⟨-, -, -, hlow, hhigh⟩ := hc
  exact forcedStep_between (by omega) (by omega)

theorem measured_inRange {c : Settings} {r : Record} {m : Nat} (now : Nat) (seed : Bool) (hm : m ≤ 255) (hc : c.filterOk)
    (hr : r.inRange) : (r.measured c now m seed).1.inRange := by
  obtain ⟨hF0, hF, hL0, hL⟩ := hr
  have hstep := filterStep_between hc r.F m
  have hbase := baselineStep_between hc (filterStep c r.F m) r.L
  unfold Record.measured
  split
  · exact ⟨by dsimp only; omega, by dsimp only; omega, by dsimp only; omega, by dsimp only; omega⟩
  · dsimp only [Record.inRange]
    refine ⟨by omega, by omega, ?_, ?_⟩ <;> split <;> omega

/-- A measurement changes F, L and the fade part alone. -/
theorem measured_eq (c : Settings) (now m : Nat) (seed : Bool) (r : Record) :
    ∃ F L f, (r.measured c now m seed).1 = { r with F := F, L := L, fade := f } := by
  unfold Record.measured
  split
  · exact ⟨_, _, r.fade, rfl⟩
  · exact ⟨_, _, _, rfl⟩

section
variable {air : Prop} (s : State)

theorem measure_moves (i m : Nat) (seed : Bool) (hm : m ≤ 255) : State.Moves air s (s.measure i m seed) := by
  unfold State.measure
  split
  · exact .refl s
  · rename_i r hr
    have hrange := measured_inRange (r := r) s.nowMs seed hm (c := s.cfg)
    obtain ⟨F, L, f, hafter⟩ := measured_eq s.cfg s.nowMs m seed r
    dsimp only
    rw [hafter] at hrange ⊢
    have hk : r.SameLink s.cfg { r with F := F, L := L, fade := f } := ⟨rfl, rfl, id, rfl, rfl, hrange⟩
    split
    · rw [State.fadeReport, putReport_setSlot]
      refine (putReport_moves s _ _ _).trans
        (announceFade_moves r.fade ((putReport_rec? s _ _ _ i).trans hr) ?_ fun hs hsh => consistent_of_fade hs hsh)
      rw [cfg_congr (putReport_host s _ _ _)]
      exact hk
    · exact announceFade_moves r.fade hr hk fun hs hsh => consistent_of_fade hs hsh

end

end Sys2Proof.Machine


namespace Sys2Proof.Machine

/-- The sources of the frames queued from a slot made absent (R136), which makes work available. -/
def State.sourceless (i : Nat) (s : State) : State :=
  { s with fwd := s.fwd.map fun (e : Entry) => if e.source = some i then { e with source := none } else e,
           workAvailable := true }

section
variable {air : Prop} (s : State)

/-! ## Trim and fade -/

theorem endTrim_moves (i : Nat) (o : TrimOutcome) : State.Moves air s (s.endTrim i o) := by
  unfold State.endTrim
  split
  · exact .refl s
  · rename_i r hr
    refine .trans (edit_moves s hr ?_) (putReport_moves _ _ _ _)
    exact ⟨rfl, id⟩

/-- The TRIM report of a settling that ends with an outcome on a record (R103). -/
def Record.trimReport (c : Settings) (now : Nat) (o : TrimOutcome) (r : Record) : ReportBody :=
  .trim o r.trim.step r.trim.clamped (r.trim.echo.getD 0) (expectedMargin (r.trim.echo.getD 0) r.trim.step) r.trim.count
    (rateUsed c { r with trim := r.trim.ended c now o })

/-- The end of a trim is the trim part's change after its report. -/
theorem endTrim_setSlot {i : Nat} (r : Record) (o : TrimOutcome) (hi : i < s.slots.length) :
    (s.setSlot i (some r)).endTrim i o = (s.putReport r.peer (some i) (r.trimReport s.cfg s.now o)).setSlot i
      (some { r with trim := r.trim.ended s.cfg s.now o }) := by
  rw [State.endTrim, rec?_setSlot s i i _ hi, if_pos rfl]
  dsimp only
  rw [setSlot_setSlot, putReport_setSlot]
  rfl

theorem takeEcho_moves (i echo : Nat) : State.Moves air s (s.takeEcho i echo) := by
  unfold State.takeEcho
  split
  · exact .refl s
  · rename_i r hr
    refine .ite (fun _ => ?_) fun _ => .refl s
    dsimp only
    generalize (if decide (r.trim.state = .settling) = true then r.trim.count + 1 else r.trim.count) = n
    split
    · rw [endTrim_setSlot s _ _ (rec?_lt s hr)]
      generalize Record.trimReport _ _ _ _ = body
      refine (putReport_moves s r.peer (some i) body).trans ?_
      refine assessTrim_rerate_moves ((putReport_rec? s _ _ _ i).trans hr) ?_
      exact ⟨rfl, rfl, id, rfl, rfl, fun _ => id⟩
    · refine assessTrim_rerate_moves hr ?_
      exact ⟨rfl, rfl, id, rfl, rfl, fun _ => id⟩

theorem rebuild_inRange {r : Record} (hr : r.inRange) : Record.inRange { r with L := r.F, fade := Fade.none } :=
  ⟨hr.1, hr.2.1, hr.1, hr.2.1⟩

theorem rebuildBaseline_moves (i : Nat) (cause : FadeCause) (duration : Nat) :
    State.Moves air s (s.rebuildBaseline i cause duration) := by
  unfold State.rebuildBaseline
  split
  · exact .refl s
  · rename_i r hr
    dsimp only
    rw [State.fadeReport, putReport_setSlot]
    exact (putReport_moves s _ _ _).trans
      (announceFade_moves r.fade ((putReport_rec? s _ _ _ i).trans hr)
        ⟨rfl, rfl, id, rfl, rfl, fun _ => rebuild_inRange⟩ fun hs hsh => consistent_of_fade hs hsh)

/-- BRIEF_EXPIRY's part on the record (R84). -/
theorem shadowBegins_announced_moves {i : Nat} {r : Record} (h : s.rec? i = some r) :
    State.Moves air s ((s.shadowBegins i r).announceFade i r.fade) := by
  rw [State.shadowBegins, State.fadeReport, putReport_setSlot]
  exact (putReport_moves s _ _ _).trans
    (announceFade_moves r.fade ((putReport_rec? s _ _ _ i).trans h) ⟨rfl, rfl, id, rfl, rfl, fun _ => id⟩
      fun hs hsh => consistent_of_fade hs hsh)

/-- SETTLE_EXPIRY's part where the two expiries coincide (R83): the shadow begun is not announced by itself. -/
theorem shadowBegins_rebuild_moves {i : Nat} {r : Record} (h : s.rec? i = some r) (hheld : r.fade.state.held = true)
    (cause : FadeCause) (duration : Nat) :
    State.Moves air s ((s.shadowBegins i r).rebuildBaseline i cause duration) := by
  have hslot := (putReport_rec? s r.peer (some i) (.fade .shadowBegun .none s.cfg.tBrief r.fade.maxDef r.F r.L) i).trans h
  rw [State.shadowBegins, State.fadeReport, putReport_setSlot, State.rebuildBaseline,
    rec?_setSlot _ i i _ (rec?_lt _ hslot), if_pos rfl]
  dsimp only
  rw [setSlot_setSlot, State.fadeReport, putReport_setSlot]
  refine (putReport_moves s _ _ _).trans ((putReport_moves _ _ _ _).trans
    (announceFade_moves _ ((putReport_rec? _ _ _ _ i).trans hslot) ⟨rfl, rfl, id, rfl, rfl, fun _ => rebuild_inRange⟩
      fun hs _ => ?_))
  rw [← show FadeState.clear = r.fade.state from hs] at hheld
  exact absurd hheld (by decide)

/-! ## Checks and the reflect buffer -/

theorem endCheck_moves (cause : CheckCause) : State.Moves air s (s.endCheck cause) := by
  unfold State.endCheck
  split
  · exact .trans ((State.Moves.refl s).aside rfl) (putReport_moves _ _ _ _)
  · exact .refl s

theorem endCheckOn_moves (i : Nat) : State.Moves air s (s.endCheckOn i) := by
  unfold State.endCheckOn
  split
  · exact .ite (fun _ => endCheck_moves s _) fun _ => .refl s
  · exact .refl s

theorem withdrawReflect_moves (prober : Addr) : State.Moves air s (s.withdrawReflect prober) := by
  obtain ⟨x, hx, -⟩ := withdrawReflect_eq s prober
  rw [hx]
  exact (State.Moves.refl s).aside rfl

/-! ## Loss and removal (R36 to R38) -/

theorem removePathsVia_moves (i : Nat) : State.Moves air s (s.removePathsVia i) :=
  (State.Move.pathsGo s _ List.filter_sublist).moves

theorem removePathsVia_free {i : Nat} {p : ReturnPath} (hp : p ∈ (s.removePathsVia i).paths) : p.via ≠ i := by
  simpa using (List.mem_filter.mp hp).2

/-- A report does not read the return paths. -/
theorem putReport_removePathsVia (i : Nat) (a : Addr) (slot : Option Nat) (body : ReportBody) :
    (s.putReport a slot body).removePathsVia i = (s.removePathsVia i).putReport a slot body := by
  unfold State.putReport
  rw [show (s.removePathsVia i).reports = s.reports from rfl, show (s.removePathsVia i).serial = s.serial from rfl]
  cases overwrite a slot body s.serial s.reports with
  | some q => rfl
  | none =>
    dsimp only
    by_cases h : s.reports.length < 32
    · rw [if_pos h, if_pos h]; rfl
    · rw [if_neg h, if_neg h]; rfl

/-- Reselection does not read the return paths. -/
theorem reselect_removePathsVia (i : Nat) : s.reselect.removePathsVia i = (s.removePathsVia i).reselect := by
  unfold State.reselect
  rw [show (s.removePathsVia i).nextHop = s.nextHop from rfl, show (s.removePathsVia i).advCost = s.advCost from rfl,
    show (s.removePathsVia i).selectHop = s.selectHop from rfl,
    show (s.removePathsVia i).costThrough s.selectHop = s.costThrough s.selectHop from rfl]
  split
  · rfl
  · rw [putReport_removePathsVia]
    rfl

/-- The announcement of a loss after the change of the slot that it follows (R36). -/
theorem announceLoss_moves {i : Nat} {r : Record} (h : s.rec? i = some r) (peer : Addr) {o : Option Record}
    (ho : o = none ∨ ∃ r', o = some r' ∧ r.Follows (s.removePathsVia i) i r') :
    State.Moves air s ((s.setSlot i o).announceLoss i peer) := by
  have hfree : ∀ p ∈ (s.removePathsVia i).paths, p.via ≠ i := fun p hp => removePathsVia_free s hp
  have hroute : State.Moves air s ((s.removePathsVia i).setSlot i o).reselect := by
    refine (removePathsVia_moves s i).trans ?_
    rcases ho with rfl | ⟨r', rfl, hf⟩
    · exact (State.Move.removed (s.removePathsVia i) i r h fun _ => hfree).moves
    · exact (State.Move.reseated (s.removePathsVia i) i r r' h hf).moves
  rw [State.announceLoss, reselect_removePathsVia]
  exact hroute.trans ((endCheckOn_moves _ i).trans (withdrawReflect_moves _ peer))

theorem sourceless_moves (i : Nat) : State.Moves air s (s.sourceless i) := by
  refine .aside (.trans ((State.Move.queue s (s.sourceless i).fwd (List.length_map _).le ?_).moves) (.refl _)) rfl
  simp only [State.sourceless, List.countP_map, State.hostShare]
  refine (List.countP_congr fun e _ => ?_).le
  dsimp only [Function.comp]
  split <;> rfl

theorem removeRecord_moves (i : Nat) (cause : LinkCause) : State.Moves air s (s.removeRecord i cause) := by
  unfold State.removeRecord
  split
  · exact .refl s
  · rename_i r hr
    dsimp only
    rw [putReport_setSlot]
    refine (putReport_moves s r.peer (some i) (.neighbour .removed cause none)).trans ?_
    have hr := (putReport_rec? s r.peer (some i) (.neighbour .removed cause none) i).trans hr
    generalize s.putReport r.peer (some i) (.neighbour .removed cause none) = u at hr ⊢
    refine (sourceless_moves u i).trans (.ite (fun _ => ?_) fun hup => ?_)
    · exact announceLoss_moves (u.sourceless i) hr r.peer (.inl rfl)
    · exact (State.Move.removed (u.sourceless i) i r hr fun hl => absurd hl hup).moves

theorem ageCheck_moves (i : Nat) : State.Moves air s (s.ageCheck i) := by
  unfold State.ageCheck
  split
  · exact .refl s
  · exact .ite (fun _ => removeRecord_moves s i _) fun _ => .refl s

/-- A record that loses its link (R36), once no return path leads through its slot. -/
theorem lost_follows {i : Nat} {r : Record} (hup : r.link = .up) (hfree : ∀ p ∈ s.paths, p.via ≠ i) :
    r.Follows s i (r.lost s.cfg) where
  peer := rfl
  up h := nomatch (h : LinkState.lost = .up)
  range _ := id
  derived hr := ⟨rfl, rfl, fun hx => absurd (hup.symm.trans (hr.2.2 hx)) (by decide)⟩
  paths _ _ := .inr hfree

theorem loseLink_moves (i : Nat) (cause : LinkCause) : State.Moves air s (s.loseLink i cause) := by
  unfold State.loseLink
  split
  · exact .refl s
  · rename_i r hr
    refine .ite (fun hup => ?_) fun _ => .refl s
    dsimp only
    refine .trans ?_ (ageCheck_moves _ i)
    rw [putReport_setSlot]
    refine (putReport_moves s r.peer (some i) (.neighbour .lost cause (some .lost))).trans ((noteWork_moves _).trans ?_)
    have hr' := (putReport_rec? s r.peer (some i) (.neighbour .lost cause (some .lost)) i).trans hr
    refine announceLoss_moves (State.noteWork _) hr' r.peer (.inr ⟨_, rfl, ?_⟩)
    have hcfg := cfg_congr (putReport_host s r.peer (some i) (.neighbour .lost cause (some .lost)))
    rw [← hcfg]
    exact lost_follows _ hup fun p hp => removePathsVia_free _ hp

theorem noAckExhausted_moves (peer : Addr) : State.Moves air s (s.noAckExhausted peer) := by
  unfold State.noAckExhausted
  split
  · exact .refl s
  · split
    · exact .refl s
    · rename_i i _ _ r hr
      have hedit : State.Moves air s (s.setSlot i (some { r with failStreak := r.failStreak + 1 })) :=
        edit_moves s hr ⟨rfl, id⟩
      exact .ite (fun _ => .ite (fun _ => hedit.trans (loseLink_moves _ i _)) fun _ => hedit) fun _ => .refl s

/-! ## Drops (R128 to R130, R135) -/

theorem dequeue_moves (id : Nat) : State.Moves air s (s.dequeue id) :=
  (State.Move.queue s _ List.eraseP_sublist.length_le (List.Sublist.countP_le List.eraseP_sublist)).moves

theorem recordDrop_moves (e : Entry) (cause : DropCause) : State.Moves air s (s.recordDrop e cause) := by
  unfold State.recordDrop
  split
  · exact putReport_moves s _ _ _
  · exact modRec_moves s _ fun _ => ⟨rfl, id⟩
  · exact .refl s

theorem dropEntry_moves (id : Nat) (cause : DropCause) : State.Moves air s (s.dropEntry id cause) := by
  unfold State.dropEntry
  split
  · exact .refl s
  · exact (dequeue_moves s id).trans ((returnBuffer_moves _).trans (recordDrop_moves _ _ _))

theorem releaseEntry_moves (id : Nat) : State.Moves air s (s.releaseEntry id) := by
  unfold State.releaseEntry
  split
  · exact .refl s
  · exact (dequeue_moves s id).trans (returnBuffer_moves _)

/-! ## Exchanges (R43 to R61) -/

theorem modExch_moves (i : Nat) (f : Exchange → Exchange) : State.Moves air s (s.modExch i f) :=
  modRec_moves s i fun r => ⟨rfl, by simp⟩

theorem readyPage_moves (i number : Nat) : State.Moves air s (s.readyPage i number) :=
  (modExch_moves s i _).aside rfl

/-- Between two link states other than UP a record's derived values stay (R104, R107 to R109). -/
theorem relink_follows {i : Nat} {r r' : Record} (hb : Record.bearing { r' with link := r.link } = r.bearing)
    (hl : r.consistent s.cfg → r.link ≠ .up) (hl' : r'.link ≠ .up)
    (hx : r.consistent s.cfg → r'.exch.isSome = true → r'.link = .offering) :
    r.Follows s i r' ∧ r.SameRoute s.cfg r' := by
  have ha : r.Alike { r' with link := r.link, exch := none } := ⟨hb, fun h => nomatch h⟩
  refine ⟨⟨ha.part Record.peer fun _ => rfl, fun h => absurd h hl', fun _ => ha.inRange, fun hr => ?_,
    fun hr hup => absurd hup (hl hr)⟩, ha.sameRoute _⟩
  obtain ⟨hk, hp, he, hu, -⟩ := (consistent_iff _ _).mp (ha.consistent hr)
  have hl := hl hr
  refine (consistent_iff _ _).mpr ⟨hk, hp, ?_, ?_, hx hr⟩
  · simpa [eligibleOf, hl, hl'] using he
  · simpa [rateUsed, hl, hl'] using hu

theorem relink_moves {i : Nat} {r r' : Record} (h : s.rec? i = some r)
    (hb : Record.bearing { r' with link := r.link } = r.bearing) (hl : r.consistent s.cfg → r.link ≠ .up)
    (hl' : r'.link ≠ .up) (hx : r.consistent s.cfg → r'.exch.isSome = true → r'.link = .offering) :
    State.Moves air s (s.setSlot i (some r')) :=
  have hf := relink_follows s hb hl hl' hx
  (State.Move.edited s i r r' h hf.1 hf.2).moves

/-- An exchange part stands only on a record in OFFERING (R43). -/
theorem not_up_of_exch {c : Settings} {r : Record} (hx : r.exch.isSome = true) (hr : r.consistent c) : r.link ≠ .up := by
  rw [hr.2.2 hx]
  decide

theorem toHeard_moves (i : Nat) (cause : LinkCause) (holdoff : Nat)
    (hl : ∀ r, s.rec? i = some r → r.consistent s.cfg → r.link ≠ .up) :
    State.Moves air s (s.toHeard i cause holdoff) := by
  unfold State.toHeard
  split
  · exact .refl s
  · rename_i r hr
    refine .trans (.trans (relink_moves s hr ?_ (hl r hr) ?_ ?_) (putReport_moves _ _ _ _))
      ((noteWork_moves _).trans (ageCheck_moves _ i))
    · rfl
    · simp
    · simp

/-- A record that reaches UP (R60) while fewer than 12 are UP. -/
theorem reachedUp_follows {i : Nat} {r : Record} {x : Exchange} (hx : r.exch = some x) (hcount : s.upCount < 12) :
    r.Follows s i ((r.reachedUp s.cfg x).costed s.cfg) where
  peer := rfl
  up _ := .inr hcount
  range _ := id
  derived _ := ⟨rfl, (rateUsed_of_no_echo rfl).symm, fun h => nomatch h⟩
  paths hr hup := absurd hup (not_up_of_exch (by rw [hx]; rfl) hr)

theorem requestUp_moves (i : Nat) : State.Moves air s (s.requestUp i) := by
  unfold State.requestUp
  split
  · exact .refl s
  · rename_i r hr
    split
    · exact .refl s
    · rename_i x hx
      refine .ite (fun hcount => ?_) fun _ => toHeard_moves s i _ _ fun q hq => ?_
      · rw [putReport_setSlot]
        refine (putReport_moves s r.peer (some i) (.neighbour .up .none (some .up))).trans ((noteWork_moves _).trans ?_)
        have hr' := (putReport_rec? s r.peer (some i) (.neighbour .up .none (some .up)) i).trans hr
        have hhost := putReport_host s r.peer (some i) (.neighbour .up .none (some .up))
        have hf : r.Follows (s.putReport r.peer (some i) (.neighbour .up .none (some .up))).noteWork i
            ((r.reachedUp s.cfg x).costed s.cfg) :=
          (reachedUp_follows s hx hcount).congr (putReport_slots s _ _ _) hhost
            (fun p hp => (putReport_paths s _ _ _) ▸ hp)
        rw [← cfg_congr hhost] at hf ⊢
        exact recost_moves (s := State.noteWork _) hr' hf rfl rfl
      · cases hr.symm.trans hq
        exact not_up_of_exch (by rw [hx]; rfl)

theorem beginExchange_moves (i : Nat) (x : Exchange) (hl : ∀ r, s.rec? i = some r → r.link ≠ .up) :
    State.Moves air s (s.beginExchange i x) := by
  refine .trans ?_ (noteWork_moves _)
  unfold State.modRec
  split
  · rename_i r hr
    exact relink_moves s hr rfl (fun _ => hl r hr) (by simp) fun _ _ => rfl
  · exact .refl s

theorem openOn_moves (i : Nat) (hl : ∀ r, s.rec? i = some r → r.link ≠ .up) : State.Moves air s (s.openOn i) :=
  (drawBelow_moves s 65536).trans ((beginExchange_moves (s.drawBelow 65536).2 i _ hl).trans (readyPage_moves _ i 0))

theorem candidate_not_up {r : Record} (h : s.candidate r = true) : r.link ≠ .up := by
  simp only [State.candidate, Bool.and_eq_true, decide_eq_true_eq] at h
  rw [h.1.1.1.1]
  decide

theorem openOn_candidate_moves {i : Nat} {r : Record} (hr : s.rec? i = some r) (h : s.candidate r = true) :
    State.Moves air s (s.openOn i) :=
  openOn_moves s i fun q hq => by
    cases hr.symm.trans hq
    exact candidate_not_up s h

theorem assess_moves (i : Nat) : State.Moves air s (s.assess i) := by
  unfold State.assess
  split
  · exact .refl s
  · rename_i r hr
    refine .ite (fun hc => .ite (fun _ => openOn_candidate_moves s hr hc) fun _ => ?_) fun _ => ?_
    · exact .ite (fun _ => edit_moves s hr ⟨rfl, id⟩) fun _ => .refl s
    · exact .ite (fun _ => edit_moves s hr ⟨rfl, id⟩) fun _ => .refl s

theorem assessAll_moves : State.Moves air s s.assessAll := by
  unfold State.assessAll
  generalize List.range 24 = l
  induction l generalizing s with
  | nil => exact .refl s
  | cons i l ih => exact (assess_moves s i).trans (ih _)

theorem answerOrRefuse_moves (i : Nat) (nonce : Word16) (cap : Nat) (refl : Bool) (terms : Nat)
    (hl : ∀ r, s.rec? i = some r → r.link ≠ .up) :
    State.Moves air s (s.answerOrRefuse i nonce cap refl terms) := by
  have hbegun (x : Exchange) : State.Moves air s ((s.drawBelow 65536).2.beginExchange i x) :=
    (drawBelow_moves s _).trans (beginExchange_moves _ i x hl)
  refine .ite (fun _ => ?_) fun _ => (hbegun _).trans (readyPage_moves _ i 0)
  exact .ite (fun _ => (hbegun _).trans (readyPage_moves _ i 0)) fun _ => hbegun _

theorem pagesApplied_moves (i : Nat) (x : Exchange) : State.Moves air s (s.pagesApplied i x) := by
  refine .ite (fun _ => ?_) fun _ => .refl s
  split
  · exact requestUp_moves s i
  · exact readyPage_moves s i 0

theorem progress_moves (i : Nat) (x : Exchange) : State.Moves air s (s.progress i x) :=
  (modExch_moves s i _).trans (pagesApplied_moves _ i x)

theorem takePage_moves (i : Nat) (page : OfferPage) : State.Moves air s (s.takePage i page).1 := by
  unfold State.takePage
  split
  · exact .refl s
  · rename_i r hr
    have hlink (hl : r.link ≠ .up) : ∀ q, s.rec? i = some q → q.link ≠ .up := fun q hq => by
      cases hr.symm.trans hq
      exact hl
    split
    · exact answerOrRefuse_moves s i _ _ _ _ (hlink (by simp [*]))
    · exact .refl s
    · exact .refl s
    · exact .refl s
    · unfold State.takePage.offeringTerm
      simp only [apply_ite Prod.fst]
      exact .ite (fun _ => .refl s) fun _ => .ite (fun _ => .refl s) fun _ =>
        .ite (fun _ => progress_moves s i _) fun _ => .refl s
    · have hl := hlink (by simp [*])
      unfold State.takePage.offeringOpen
      simp only [apply_ite Prod.fst]
      refine .ite (fun _ => .refl s) fun _ => ?_
      split
      · simp only [apply_ite Prod.fst]
        exact .ite (fun _ => toHeard_moves s i _ _ fun q hq _ => hl q hq) fun _ =>
          .ite (fun _ => progress_moves s i _) fun _ => .refl s
      · simp only [apply_ite Prod.fst]
        exact .ite (fun _ => .refl s) fun _ => .ite (fun _ => progress_moves s i _) fun _ =>
          (drawBelow_moves s _).trans (toHeard_moves _ i _ _ fun q hq _ => hl q hq)
      · simp only [apply_ite Prod.fst]
        exact .ite (fun _ => .refl s) fun _ => answerOrRefuse_moves s i _ _ _ _ hl
      · exact .refl s
    · exact .refl s

/-- A pending page stands on a record with an exchange part. -/
theorem pendingPage_some {i id : Nat} {r : Record} {x : Exchange} {p : Page} (h : s.pendingPage i id = some (r, x, p)) :
    s.rec? i = some r ∧ r.exch = some x ∧ x.page = some p ∧ p.id = id := by
  unfold State.pendingPage at h
  split at h
  · cases h
  · split at h
    · cases h
    · split at h
      · split at h
        · cases h
          exact ⟨‹_›, ‹_›, ‹_›, ‹_›⟩
        · cases h
      · cases h

theorem modExch_exch {i : Nat} {f : Exchange → Exchange} {r : Record} {x : Exchange} (hr : s.rec? i = some r)
    (hx : r.exch = some x) : (s.modExch i f).rec? i = some { r with exch := some (f x) } := by
  rw [State.modExch, modRec_eq s _ hr, rec?_setSlot s i i _ (rec?_lt s hr), if_pos rfl, hx, Option.map_some]

theorem pageAcked_moves (i id : Nat) : State.Moves air s (s.pageAcked i id) := by
  unfold State.pageAcked
  split
  · exact .refl s
  · rename_i r x p hpend
    obtain ⟨hr, hx, -, -⟩ := pendingPage_some s hpend
    refine (modExch_moves s i _).trans (.ite (fun _ => readyPage_moves _ i _) fun _ => ?_)
    split
    · exact modExch_moves _ i _
    · refine .ite (fun _ => toHeard_moves _ i _ _ fun q hq => ?_) fun _ => requestUp_moves _ i
      cases (modExch_exch s hr hx).symm.trans hq
      exact not_up_of_exch rfl

theorem failExchange_moves (i : Nat) : State.Moves air s (s.failExchange i) := by
  unfold State.failExchange
  split
  · exact .refl s
  · rename_i r hr
    split
    · exact .refl s
    · rename_i x hx
      refine toHeard_moves s i _ _ fun q hq => ?_
      cases hr.symm.trans hq
      exact not_up_of_exch (by rw [hx]; rfl)

theorem pageExhausted_moves (i id : Nat) : State.Moves air s (s.pageExhausted i id) := by
  unfold State.pageExhausted
  split
  · exact .refl s
  · exact failExchange_moves s i

end

end Sys2Proof.Machine


namespace Sys2Proof.Machine

/-! ## The table through a loss and a removal -/

section
variable (s : State)

@[simp] theorem reselect_slots : s.reselect.slots = s.slots := by
  obtain ⟨_, _, _, _, _, _, _, h, -⟩ := reselect_eq s
  rw [h]

@[simp] theorem endCheckOn_slots (i : Nat) : (s.endCheckOn i).slots = s.slots := by
  obtain ⟨_, _, _, _, _, h⟩ := endCheckOn_eq s i
  rw [h]

@[simp] theorem withdrawReflect_slots (prober : Addr) : (s.withdrawReflect prober).slots = s.slots := by
  obtain ⟨_, h, -⟩ := withdrawReflect_eq s prober
  rw [h]

@[simp] theorem announceLoss_slots (i : Nat) (peer : Addr) : (s.announceLoss i peer).slots = s.slots := by
  rw [State.announceLoss, withdrawReflect_slots, endCheckOn_slots]
  exact reselect_slots s

theorem removeRecord_slots {i : Nat} {r : Record} (cause : LinkCause) (h : s.rec? i = some r) :
    (s.removeRecord i cause).slots = s.slots.set i none := by
  rw [State.removeRecord, h]
  dsimp only
  split
  · rw [announceLoss_slots]
    exact putReport_slots _ _ _ _
  · rw [reselect_slots]
    exact putReport_slots _ _ _ _

/-- A removal empties its slot and changes no other. -/
theorem removeRecord_rec? {i : Nat} {r : Record} (cause : LinkCause) (h : s.rec? i = some r) (j : Nat) :
    (s.removeRecord i cause).rec? j = if j = i then none else s.rec? j := by
  rw [rec?_congr (b := s.setSlot i none) (removeRecord_slots s cause h), rec?_setSlot s i j none (rec?_lt s h)]

end

section
variable {air : Prop} (s : State)

/-! ## Admission (R26 to R30) -/

theorem findPeer_eq_none_iff (a : Addr) : s.findPeer a = none ↔ ∀ j q, s.rec? j = some q → q.peer ≠ a := by
  rw [State.findPeer, List.findIdx?_eq_none_iff]
  constructor
  · intro h j q hq
    simpa using h (some q) (List.mem_of_getElem? ((rec?_eq_some_iff s j q).mp hq))
  · intro h o ho
    cases o with
    | none => rfl
    | some q =>
      obtain ⟨j, hj⟩ := (mem_slots_iff s q).mp ho
      simpa using h j q hj

/-- The record found to evict stands in its slot (R28). -/
theorem evictFrom_some {l : List (Option Record)} {k : Nat} {best : Option (Nat × Nat)} {b : Nat × Nat}
    (h : evictFrom l k best = some b) : best = some b ∨ ∃ j r, b.1 = k + j ∧ l[j]? = some (some r) := by
  induction l generalizing k best with
  | nil => exact .inl h
  | cons o l ih =>
    have hlater (h' : ∃ j r, b.1 = k + 1 + j ∧ l[j]? = some (some r)) :
        ∃ j r, b.1 = k + j ∧ (o :: l)[j]? = some (some r) := by
      obtain ⟨j, r, hj, hr⟩ := h'
      exact ⟨j + 1, r, by omega, hr⟩
    cases o with
    | none => exact (ih h).imp_right hlater
    | some r =>
      have hhere (hb : some (k, r.lastHeard) = some b) : ∃ j q, b.1 = k + j ∧ (some r :: l)[j]? = some (some q) := by
        cases hb
        exact ⟨0, r, rfl, rfl⟩
      simp only [evictFrom] at h
      split at h
      · split at h
        · rcases ih h with h' | h'
          · split at h'
            · exact .inr (hhere h')
            · exact .inl h'
          · exact .inr (hlater h')
        · rcases ih h with h' | h'
          · exact .inr (hhere h')
          · exact .inr (hlater h')
      · exact (ih h).imp_right hlater

/-- The slot made for a newcomer exists, is empty, and is the only one that may have lost its record (R25, R28). -/
theorem makeRoom_slot {i : Nat} (h : s.makeRoom.2 = some i) :
    s.makeRoom.1.rec? i = none ∧ i < s.makeRoom.1.slots.length ∧
      ∀ j q, s.makeRoom.1.rec? j = some q → s.rec? j = some q := by
  rw [makeRoom_slotCount]
  unfold State.makeRoom at h ⊢
  split at h
  · rename_i k hk
    cases h
    obtain ⟨hlt, hempty, -⟩ := List.findIdx?_eq_some_iff_getElem.mp hk
    refine ⟨?_, hlt, fun _ _ => id⟩
    rw [State.rec?, List.getElem?_eq_getElem hlt]
    simpa using hempty
  · split at h
    · rename_i b hb
      cases h
      obtain ⟨j, r, hj, hr⟩ := (evictFrom_some hb).resolve_left (by simp)
      rw [Nat.zero_add] at hj
      have hr : s.rec? b.1 = some r := (rec?_eq_some_iff s b.1 r).mpr (hj ▸ hr)
      dsimp only
      refine ⟨by rw [removeRecord_rec? s _ hr, if_pos rfl], rec?_lt s hr, fun k q hq => ?_⟩
      rw [removeRecord_rec? s _ hr] at hq
      split at hq
      · cases hq
      · exact hq
    · cases h

theorem makeRoom_moves : State.Moves air s s.makeRoom.1 := by
  unfold State.makeRoom
  split
  · exact .refl s
  · split
    · exact removeRecord_moves s _ _
    · exact .refl s

theorem admitted_inRange (c : Settings) (peer : Addr) (now : Nat) {m : Nat} (a : Advert) (hm : m ≤ 255) :
    (Record.admitted c peer now m a).inRange := by
  simp only [Record.inRange, Record.admitted, Record.costed]
  omega

theorem admitPeer_moves (peer : Addr) (m : Nat) (a : Advert) (hair : air) (hm : m ≤ 255)
    (hnew : s.findPeer peer = none) : State.Moves air s (s.admitPeer peer m a).1 := by
  have hroom := makeRoom_moves (air := air) s
  have hslot := fun i => makeRoom_slot s (i := i)
  unfold State.admitPeer
  split
  · rename_i u hu
    rwa [hu] at hroom
  · rename_i u i hu
    rw [hu] at hroom hslot
    obtain ⟨hempty, hlt, hold⟩ := hslot i rfl
    have hnew' : u.findPeer peer = none := (findPeer_eq_none_iff u peer).mpr fun j q hq =>
      (findPeer_eq_none_iff s peer).mp hnew j q (hold j q hq)
    refine .trans (.trans (hroom.trans ?_) (putReport_moves _ _ _ _)) (noteWork_moves _)
    exact (State.Move.admitted u i _ hair hempty hlt hnew' rfl (admitted_inRange _ _ _ _ hm)
      ⟨rfl, rfl, fun h => nomatch h⟩).moves

theorem refresh_moves (i : Nat) : State.Moves air s (s.refresh i).1 := by
  unfold State.refresh
  split
  · exact .refl s
  · rename_i r hr
    dsimp only
    split
    · rename_i hlost
      refine .trans (.trans ?_ (putReport_moves _ _ _ _)) (noteWork_moves _)
      refine relink_moves s hr rfl (fun _ => ?_) (by simp) fun hc hx => ?_
      · rw [hlost]
        decide
      · exact absurd (hlost.symm.trans (hc.2.2 hx)) (by decide)
    · refine edit_moves s hr ?_
      exact ⟨rfl, id⟩

/-! ## The observation (R12) -/

theorem hear_moves (f : RxFrame) (welcome : Option Advert) (hair : air) : State.Moves air s (s.hear f welcome).1 := by
  unfold State.hear
  split
  · exact refresh_moves s _
  · split
    · exact .refl s
    · split
      · exact admitPeer_moves s _ _ _ hair (normalise_le _ _) ‹_›
      · exact .refl s

theorem observe_moves (f : RxFrame) (welcome : Option Advert) (echo : Option Nat) (hair : air) :
    State.Moves air s (s.observe f welcome echo).1 := by
  have hhear := hear_moves s f welcome hair
  unfold State.observe
  split
  · rename_i u hu
    rwa [hu] at hhear
  · rename_i u i seed hu
    rw [hu] at hhear
    refine hhear.trans ?_
    dsimp only
    split
    · exact (takeEcho_moves u i _).trans (measure_moves _ i _ seed (normalise_le _ _))
    · exact measure_moves u i _ seed (normalise_le _ _)

/-! ## The Duty Controller and the Link Checker -/

theorem activity_moves : State.Moves air s s.activity :=
  .ite (fun _ => .ite (fun _ => (State.Moves.refl s).aside rfl)
    (fun _ => ((State.Moves.refl s).aside rfl).trans (putReport_moves _ _ _ _))) fun _ => .refl s

theorem beaconEnded_moves : State.Moves air s s.beaconEnded :=
  .ite (fun _ => .ite (fun _ => (State.Moves.refl s).aside rfl) fun _ => (State.Moves.refl s).aside rfl)
    fun _ => .refl s

theorem readyProbe_moves : State.Moves air s s.readyProbe := by
  unfold State.readyProbe
  split
  · exact .refl s
  · exact .ite (fun _ => (State.Moves.refl s).aside rfl) fun _ => .refl s

theorem nextProbe_moves : State.Moves air s s.nextProbe := by
  unfold State.nextProbe
  split
  · exact .refl s
  · split
    · exact readyProbe_moves s
    · exact .ite (fun _ => readyProbe_moves s) fun _ => (State.Moves.refl s).aside rfl

theorem probeSettled_moves (saturated : Bool) : State.Moves air s (s.probeSettled saturated) := by
  unfold State.probeSettled
  split
  · exact .refl s
  · rename_i c _
    dsimp only
    have hset : State.Moves air s { s with check := { s.check with
        record := some { c with settled := (c.settled + 1) % (largest16 + 1) } } } := (State.Moves.refl s).aside rfl
    exact hset.trans (.ite (fun _ => endCheck_moves _ _) fun _ => .ite (fun _ => endCheck_moves _ _)
      fun _ => nextProbe_moves _)

theorem takeReflect_moves (src : Addr) (body : List Byte) : State.Moves air s (s.takeReflect src body) := by
  unfold State.takeReflect
  split
  · exact .ite (fun _ => .trans ((State.Moves.refl s).aside rfl) (probeSettled_moves _ _)) fun _ => .refl s
  · exact .refl s

theorem takeProbe_moves (i : Nat) (src : Addr) (body : List Byte) : State.Moves air s (s.takeProbe i src body) :=
  .ite (fun _ => (State.Moves.refl s).aside rfl) fun _ => .refl s

theorem probeSent_moves (id : Nat) : State.Moves air s (s.probeSent id) := by
  unfold State.probeSent
  split
  · refine .ite (fun _ => ?_) fun _ => .refl s
    exact .ite (fun _ => .trans ((State.Moves.refl s).aside rfl) (endCheck_moves _ _))
      fun _ => (State.Moves.refl s).aside rfl
  · exact .refl s

/-! ## The Air Sender -/

/-- Changes of queued frames that move no frame and no tag. -/
theorem mapQueue_moves (f : Entry → Entry) (hf : ∀ e, (f e).tag = e.tag) :
    State.Moves air s { s with fwd := s.fwd.map f } := by
  refine (State.Move.queue s (s.fwd.map f) (List.length_map _).le ?_).moves
  rw [List.countP_map, State.hostShare]
  exact (List.countP_congr fun e _ => by simp [hf]).le

theorem countAttempt_moves (c : Chosen) : State.Moves air s (s.countAttempt c) := by
  unfold State.countAttempt
  split
  · exact modExch_moves s _ _
  · refine mapQueue_moves s _ fun e => ?_
    split <;> rfl
  · exact .refl s

theorem senderIdle_moves : State.Moves air s s.senderIdle := (State.Moves.refl s).aside rfl

theorem beginSending_moves (c : Chosen) (l : Launch) : State.Moves air s (s.beginSending c l) := by
  have hrx : State.Moves air (s.countAttempt c)
      { s.countAttempt c with rx := (s.countAttempt c).rx.silenced } := (State.Moves.refl _).receiver rfl (.inl rfl)
  exact ((countAttempt_moves s c).trans hrx).aside rfl

theorem backoffEnds_moves : State.Moves air s s.backoffEnds := by
  unfold State.backoffEnds
  split
  · exact senderIdle_moves s
  · split
    · exact beginSending_moves s _ _
    · exact senderIdle_moves s

theorem countDown_moves (count : Nat) : State.Moves air s (s.countDown count) :=
  .ite (fun _ => .trans ((State.Moves.refl s).aside rfl) (backoffEnds_moves _))
    fun _ => (State.Moves.refl s).aside rfl

theorem enterDefer_moves (c : Chosen) : State.Moves air s (s.enterDefer c) := (State.Moves.refl s).aside rfl

theorem scanQueue_moves (l : List Entry) : State.Moves air s (scanQueue l s).1 := by
  induction l generalizing s with
  | nil => exact .refl s
  | cons e l ih =>
    unfold scanQueue
    split
    · exact .refl s
    · exact (dropEntry_moves s _ _).trans (ih _)
    · refine .trans ?_ (ih _)
      exact .ite (fun _ => dropEntry_moves s _ _) fun _ => .refl s

theorem choose_moves : State.Moves air s s.choose := by
  have hscan := scanQueue_moves (air := air) s s.fwd
  unfold State.choose
  split
  · exact enterDefer_moves s _
  · split
    · exact enterDefer_moves s _
    · split
      · rename_i h
        rw [h] at hscan
        exact hscan.trans (enterDefer_moves _ _)
      · rename_i h
        rwa [h] at hscan

theorem returnFrame_moves (o : AttemptOutcome) : State.Moves air s (s.returnFrame o) := by
  unfold State.returnFrame
  split
  · exact releaseEntry_moves s _
  · exact .ite (fun _ => dropEntry_moves s _ _) fun _ => .refl s
  · exact .ite (fun _ => (dropEntry_moves s _ _).trans (noAckExhausted_moves _ _)) fun _ => .refl s
  · exact pageAcked_moves s _ _
  · exact .ite (fun _ => pageExhausted_moves s _ _) fun _ => .refl s
  · exact .refl s

theorem settleAttempt_moves (o : AttemptOutcome) : State.Moves air s (s.settleAttempt o) :=
  ((returnFrame_moves s o).aside rfl).trans (senderIdle_moves _)

/-! ## What ends a command -/

theorem syncReceiver_moves : State.Moves air s s.syncReceiver := by
  unfold State.syncReceiver
  split
  · refine .ite (fun h => ?_) fun _ => .refl s
    have hop : s.operating = true := by
      simp only [State.askedToListen, Bool.and_eq_true] at h
      exact h.1.1
    exact .trans ((State.Moves.refl s).receiver rfl (.inr (.inr (.inl hop)))) (receiverTakes_moves _)
  · exact .ite (fun _ => .refl s) fun _ => (State.Moves.refl s).receiver rfl (.inl rfl)
  · exact .refl s

theorem contend_moves : State.Moves air s s.contend := by
  obtain ⟨tx, h, -⟩ := contend_spec s
  rw [h]
  exact (State.Moves.refl s).aside rfl

theorem setAttention_moves : State.Moves air s s.setAttention := (State.Moves.refl s).aside rfl

theorem chooseIfWork_moves : State.Moves air s s.chooseIfWork := by
  refine .aside (t := if s.mayChoose && s.workAvailable then s.choose else s) ?_ rfl
  exact .ite (fun _ => choose_moves s) fun _ => .refl s

theorem finish_moves : State.Moves air s s.finish :=
  (chooseIfWork_moves s).trans ((syncReceiver_moves _).trans ((contend_moves _).trans (setAttention_moves _)))

theorem finishLinks_moves : State.Moves air s s.finishLinks := (assessAll_moves s).trans (finish_moves _)

/-! ## DATA (R124 to R126) -/

theorem keepBuffer_moves : State.Moves air s s.keepBuffer := by
  have hpassed : State.Moves air s { s with rx := { s.rx with holds := false } } :=
    (State.Moves.refl s).receiver rfl (.inr (.inl rfl))
  exact hpassed.trans (receiverTakes_moves _)

theorem recordAccepted_moves {i : Nat} {r : Record} (h : s.rec? i = some r) (hup : r.link = .up) (d : DataBody) :
    State.Moves air s (s.recordAccepted i d) := by
  have hseen : State.Moves air s { s with seen := seenInsert (d.origin, d.seq) s.seen } :=
    (State.Move.noted s _).moves
  exact (hseen.trans (State.Move.learned { s with seen := seenInsert (d.origin, d.seq) s.seen } i r d.origin s.nowMs h
    hup).moves).aside rfl

theorem isUp_some {o : Option Record} (h : isUp o = true) : ∃ r, o = some r ∧ r.link = .up := by
  cases o with
  | none => cases h
  | some r => exact ⟨r, rfl, by simpa [isUp] using h⟩

theorem takeData_moves (i : Nat) (body : List Byte) : State.Moves air s (s.takeData i body).1 := by
  unfold State.takeData
  split
  · rename_i hup
    obtain ⟨r, hr, hup⟩ := isUp_some hup
    split
    · exact .refl s
    · rename_i d _
      simp only [apply_ite Prod.fst]
      refine .ite (fun _ => modRec_moves s i fun _ => ⟨rfl, id⟩) fun _ =>
        .ite (fun _ => (State.Move.noted s _).moves) fun _ => .ite (fun _ => ?_) fun _ => ?_
      · unfold State.deliver
        simp only [apply_ite Prod.fst]
        refine .ite (fun hroom => .trans ?_ (keepBuffer_moves _)) fun _ => .refl s
        exact (State.Move.delivered s _ hroom).moves.trans
          (recordAccepted_moves { s with ring := s.ring ++ [_] } hr hup d)
      · unfold State.relay
        simp only [apply_ite Prod.fst]
        refine .ite (fun _ => ?_) fun _ => .ite (fun hplace => ?_) fun _ => .refl s
        · have hcount : State.Moves air s (s.setSlot i (some { r with hopDrops := raise16 r.hopDrops })) :=
            edit_moves s hr ⟨rfl, id⟩
          rw [modRec_eq s _ hr]
          exact hcount.trans (State.Move.noted (s.setSlot i _) _).moves
        · refine .trans ?_ (keepBuffer_moves _)
          exact (State.Move.transit s _ hplace rfl).moves.trans (.trans ((State.Moves.refl _).aside rfl)
            (recordAccepted_moves { s with fwd := s.fwd ++ [_], serial := s.serial + 1 } hr hup d))
  · exact .refl s

/-! ## The bodies of a kept frame -/

theorem askAck_moves (h : Header) (full : Bool) : State.Moves air s (s.askAck h full) :=
  .ite (fun _ => .refl s) fun _ => (State.Moves.refl s).aside rfl

/-- A record with another advertisement and its costs (R31, R110). -/
theorem readvertised_follows {i : Nat} {r : Record} (a : Advert) :
    r.Follows s i (Record.costed s.cfg { r with advert := a }) where
  peer := rfl
  up := .inl
  range _ := id
  derived hr := ⟨rfl, hr.2.1, hr.2.2⟩
  paths _ := .inl

theorem replaceAdvert_moves (i : Nat) (a : Advert) : State.Moves air s (s.replaceAdvert i a) := by
  unfold State.replaceAdvert
  split
  · exact .refl s
  · rename_i r hr
    have hcost : State.Moves air s ((s.setSlot i (some { r with advert := a })).recost i) :=
      recost_moves hr (readvertised_follows s a) rfl rfl
    exact .ite (fun _ => hcost.trans (noteWork_moves _)) fun _ => hcost

theorem countEchoed_moves (i : Nat) (listed : Bool) : State.Moves air s (s.countEchoed i listed) := by
  unfold State.countEchoed
  split
  · exact .refl s
  · rename_i r hr
    have hedit (n : Nat) : State.Moves air s (s.setSlot i (some { r with notEchoed := n })) :=
      edit_moves s hr ⟨rfl, id⟩
    exact .ite (fun _ => .ite (fun _ => hedit 0) fun _ => .ite (fun _ => (hedit _).trans (loseLink_moves _ i _))
      fun _ => hedit _) fun _ => .refl s

theorem openPeerWindow_moves (i : Nat) : State.Moves air s (s.openPeerWindow i) := by
  unfold State.openPeerWindow
  split
  · exact .refl s
  · rename_i r hr
    have hedit (w : Option Nat) : State.Moves air s (s.setSlot i (some { r with windowEnd := w })) :=
      edit_moves s hr ⟨rfl, id⟩
    exact .ite (fun _ => (hedit _).trans (noteWork_moves _)) fun _ => hedit _

theorem takeBeacon_moves (i : Nat) (a : Advert) (echoes : List EchoEntry) :
    State.Moves air s (s.takeBeacon i a echoes) := (replaceAdvert_moves s i a).trans (countEchoed_moves _ i _)

theorem clearStreak_moves (slot : Option Nat) : State.Moves air s (s.clearStreak slot) := by
  unfold State.clearStreak
  split
  · exact modRec_moves s _ fun _ => ⟨rfl, id⟩
  · exact .refl s

theorem takeAck_moves (h : Header) (slot : Option Nat) : State.Moves air s (s.takeAck h slot) :=
  .ite (fun _ => (clearStreak_moves s slot).trans (settleAttempt_moves _ _)) fun _ => clearStreak_moves s slot

theorem dataBody_moves (f : RxFrame) (slot : Option Nat) (body : List Byte) :
    State.Moves air s (s.dataBody f slot body) := by
  unfold State.dataBody
  refine .ite (fun _ => ?_) fun _ => askAck_moves s _ _
  split
  · rename_i i
    refine .ite (fun _ => ?_) fun _ => .refl s
    have hdata := takeData_moves (air := air) s i body
    split
    · rename_i h
      rw [h] at hdata
      exact hdata.trans (askAck_moves _ _ _)
    · rename_i h
      rwa [h] at hdata
  · exact .refl s

theorem offerBody_moves (f : RxFrame) (slot : Option Nat) (body : List Byte) :
    State.Moves air s (s.offerBody f slot body) := by
  unfold State.offerBody
  split
  · exact .ite (fun _ => .ite (fun _ => (takePage_moves s _ _).trans (askAck_moves _ _ _))
      fun _ => takePage_moves s _ _) fun _ => .refl s
  · exact .refl s

theorem handBody_moves (f : RxFrame) (slot : Option Nat) (body : List Byte) :
    State.Moves air s (s.handBody f slot body) := by
  unfold State.handBody
  split
  · split
    · exact .refl s
    · refine .trans ?_ (openPeerWindow_moves _ _)
      split
      · exact .ite (fun _ => takeBeacon_moves s _ _ _) fun _ => .refl s
      · exact .refl s
  · exact dataBody_moves s f slot body
  · exact takeAck_moves s _ slot
  · exact offerBody_moves s f slot body
  · split
    · exact .ite (fun _ => takeProbe_moves s _ _ _) fun _ => .refl s
    · exact .refl s
  · exact .ite (fun _ => takeReflect_moves s _ _) fun _ => .refl s

theorem keptFrameEnds_moves (f : RxFrame) (body : List Byte) (hair : air) :
    State.Moves air s (s.keptFrameEnds f body) :=
  .trans (observe_moves s f _ _ hair) (.trans (.ite (fun _ => activity_moves _) fun _ => .refl _)
    (handBody_moves _ f _ body))

/-! ## The rows' own operations -/

theorem dropFrame_moves (hair : air) : State.Moves air s s.dropFrame :=
  (State.Moves.refl s).receiver rfl (.inr (.inr (.inr hair)))

theorem acceptHeader_moves (h : Header) (raw : Int) (hair : air) : State.Moves air s (s.acceptHeader h raw) :=
  (State.Moves.refl s).receiver rfl (.inr (.inr (.inr hair)))

theorem freeReflect_moves (id : Nat) : State.Moves air s (s.freeReflect id) := by
  unfold State.freeReflect
  split
  · exact .ite (fun _ => (State.Moves.refl s).aside rfl) fun _ => .refl s
  · exact .refl s

theorem sent_moves (c : Chosen) : State.Moves air s (s.sent c) := by
  unfold State.sent
  split
  · exact .trans ((State.Moves.refl s).aside rfl) (beaconEnded_moves _)
  · exact (activity_moves s).trans ((probeSent_moves _ _).trans (senderIdle_moves _))
  · exact (activity_moves s).trans ((freeReflect_moves _ _).trans (senderIdle_moves _))
  · exact (activity_moves s).aside rfl
  · exact (activity_moves s).aside rfl

theorem waitTest_moves (e : Entry) : State.Moves air s (s.waitTest e) := by
  have hmark : State.Moves air s { s with fwd := s.fwd.map fun (q : Entry) =>
      if q.id = e.id then { q with waitDue := false } else q } :=
    mapQueue_moves s _ fun q => by split <;> rfl
  exact .ite (fun _ => hmark.trans (dropEntry_moves _ _ _)) fun _ => hmark

theorem drainReports_moves (l : List Entry) : State.Moves air s (drainReports l s) := by
  induction l generalizing s with
  | nil => exact .refl s
  | cons e l ih => exact (recordDrop_moves s e _).trans (ih _)

end

end Sys2Proof.Machine


/-! Every command by its moves: what an invariant must meet so that `exec`, and with it every step, keeps it. -/

namespace Sys2Proof.Machine

/-! ## What an invariant must meet -/

/-- What makes a predicate an invariant of every command: the moves keep it, and so does each change that is no move,
under the conditions in which the model makes it. -/
structure State.KeptBy (P : State → Prop) : Prop where
  moves    : ∀ {s t : State}, P s → State.Moves (s.rx.state ≠ .off) s t → P t
  queue    : ∀ {s : State} (q : List Instr), P s → P { s with pending := q }
  tick     : ∀ {s : State}, P s → P s.tick
  reset    : ∀ (s : State) (cause : ResetCause), P (s.resetWith cause)
  asserted : ∀ {s : State}, P s → P { s.closePort with
    inReset := true, attnLow := false, rx := Receiver.stopped, tx := Sender.stopped, free := s.free + s.looseBuffers }
  carrier  : ∀ {s : State} (c : Bool), P s → P { s with carrier := c }
  begun    : ∀ {s : State}, P s → s.port = none → P (s.withPort Transaction.fresh 0)
  byte     : ∀ {s : State} (data : Byte), P s → P (s.shiftByte data)
  closed   : ∀ {s : State}, P s → P s.closePort
  recorded : ∀ {s : State} (l : Option (Byte × Status)), P s → P { s with latest := l }
  loaded   : ∀ {s : State} (args : List Byte), P s → s.station = .unconfigured →
    P { s with settings := some (Settings.ofValues (settingsHeld args)), station := .ready,
               advCost := if (Settings.ofValues (settingsHeld args)).gateway then 0 else s.advCost }
  started  : ∀ {s : State} (d : Duty), P s → s.station = .ready → P { s with station := .acquiring, duty := d }
  acquired : ∀ {s : State} (d : Duty), P s → s.station = .acquiring → P { s with station := .onAir, duty := d }
  stopped  : ∀ {s : State}, P s → s.operating = true → P s.stopAll
  sent     : ∀ {s : State} (p : Transaction), P s → s.port = some p → p.sendHeld = true →
    P { s.closePort with fwd := s.fwd ++ [sendEntry p s.closePort], serial := s.serial + 1,
                         seqCounter := s.seqCounter + 1, workAvailable := true }
  taken    : ∀ {s : State} (rest : List Delivery), P s → rest.length ≤ s.ring.length → P { s with ring := rest }
  read     : ∀ {s : State} (ns : List Snap) (o : Bool), P s →
    P { s with reports := removeTaken ns s.reports, overrun := o }

namespace State.KeptBy

variable {P : State → Prop} (hP : State.KeptBy P)

/-- A meaning keeps the predicate. -/
def Holds (P : State → Prop) (f : State → Host.Outcome State Fault Refusal) : Prop :=
  ∀ s t : State, P s → f s = .next t → P t

theorem next {g : State → State} (hg : ∀ s, P s → P (g s)) : Holds P fun s => .next (g s) := by
  intro s t hs h
  cases h
  exact hg s hs

theorem outOfReset {g : State → State} (hg : ∀ s, P s → P (g s)) : Holds P (State.unlessReset g) :=
  next fun s hs => by
    split
    · exact hs
    · exact hg s hs

include hP

theorem finish {s : State} (h : P s) : P s.finish := hP.moves h (finish_moves s)

/-- An event that is a chain of moves. -/
theorem event {g : State → State} (hg : ∀ s, State.Moves (s.rx.state ≠ .off) s (g s)) : Holds P (State.unlessReset g) :=
  outOfReset fun s hs => hP.moves hs (hg s)

/-- A host command whose effect keeps the predicate. -/
theorem command {code : Byte} {effect : Transaction → State → Status × State}
    (he : ∀ p s, P s → P (effect p s).2) : Holds P (State.unlessReset (State.takeCommand code effect)) := by
  refine outOfReset fun s hs => ?_
  unfold State.takeCommand
  split
  · exact hs
  · split
    · exact hP.recorded _ (he _ _ (hP.closed hs))
    · exact hs

/-! ## The host's rows -/

theorem reset_row : Holds P execReset := by
  refine outOfReset fun s hs => ?_
  split
  · exact hs
  · split
    · exact hP.reset s _
    · exact hs

theorem cutShort_row : Holds P execTransactionCutShort := by
  refine outOfReset fun s hs => ?_
  split
  · exact hs
  · split
    · exact hs
    · refine hP.finish ?_
      split
      · exact hP.moves (hP.closed hs) (returnBuffer_moves _)
      · exact hP.closed hs

theorem unknown_row : Holds P execUnknownCommand := by
  refine outOfReset fun s hs => ?_
  split
  · exact hs
  · split
    · exact hP.closed hs
    · exact hs

theorem load_row : Holds P execLoadSettings := by
  refine hP.command fun p s hs => ?_
  unfold loadSettingsEffect
  dsimp only
  split
  · rename_i hst
    refine hP.loaded _ hs ?_
    unfold State.judgeLoad at hst
    split at hst
    · simp at hst
    · simpa using ‹¬s.station ≠ .unconfigured›
  · exact hs

theorem start_row : Holds P execStart := by
  refine hP.command fun p s hs => ?_
  unfold startEffect
  split
  · exact hP.finish (hP.started _ hs ‹_›)
  · exact hs

theorem stop_row : Holds P execStop := by
  refine hP.command fun p s hs => ?_
  unfold stopEffect
  have hstop (h : s.operating = true) : P s.stopAll.setAttention := hP.moves (hP.stopped hs h) (setAttention_moves _)
  split
  · exact hs
  · exact hs
  · exact hstop (by simp [State.operating, *])
  · exact hstop (by simp [State.operating, *])

/-- A SEND's place is the one its transaction held, so that its rise does not go through the closed port. -/
theorem send_row : Holds P execSend := by
  refine outOfReset fun s hs => ?_
  unfold State.takeCommand
  split
  · exact hs
  · rename_i p hp
    split
    · refine hP.recorded _ ?_
      unfold sendEffect
      split
      · exact hP.finish (hP.moves (hP.sent p hs hp ‹_›) (activity_moves _))
      · exact hP.closed hs
    · exact hs

theorem takeFrame_row : Holds P execTakeFrame := by
  refine hP.command fun p s hs => ?_
  unfold takeFrameEffect
  dsimp only
  split
  · exact hs
  · rename_i d rest hring
    split
    · exact hP.finish (hP.moves (hP.taken rest hs (by simp [hring])) (returnBuffer_moves _))
    · exact hs

theorem takeReports_row : Holds P execTakeReports :=
  hP.command fun _ _ hs => hP.moves (hP.read _ _ hs) (setAttention_moves _)

theorem carrier_row (c : Bool) : Holds P (execMediumBusyChange c) := by
  refine next fun s hs => ?_
  split
  · exact hP.carrier c hs
  · split
    · exact hs
    · exact hP.finish (hP.carrier c hs)

/-! ## The air's rows -/

theorem frameEnd_row (body : List Byte) : Holds P (execFrameEnd body) := by
  refine hP.event fun s => ?_
  split
  · rename_i hbody _
    have hair : s.rx.state ≠ .off := by rw [hbody]; decide
    exact .ite (fun _ => (dropFrame_moves s hair).trans ((keptFrameEnds_moves _ _ body hair).trans
      (finishLinks_moves _))) fun _ => .refl s
  · exact .refl s

theorem discardEnd_row : Holds P execDiscardEnd := by
  refine hP.event fun s => ?_
  split
  · rename_i hdisc _
    have hair : s.rx.state ≠ .off := by rw [hdisc]; decide
    refine .ite (fun _ => .trans (.ite (fun _ => dropFrame_moves s hair) fun _ => ?_) (finishLinks_moves _))
      fun _ => .refl s
    exact (dropFrame_moves s hair).trans (observe_moves _ _ _ _ hair)
  · exact .refl s

/-- A frame under way given up with the carrier's fall (R5, R10). -/
theorem fallen {s : State} (hs : P s) (hair : s.rx.state ≠ .off) : P (State.finish { s.dropFrame with carrier := false }) :=
  hP.finish (hP.carrier false (hP.moves hs (dropFrame_moves s hair)))

theorem headerAbandoned_row : Holds P execHeaderAbandoned := by
  refine outOfReset fun s hs => ?_
  split
  · rename_i h
    exact hP.fallen hs (by rw [h]; decide)
  · exact hs

theorem frameTruncated_row : Holds P execFrameTruncated := by
  refine outOfReset fun s hs => ?_
  split
  · rename_i h
    exact hP.fallen hs (by rw [h.1]; decide)
  · exact hs

theorem headerReceived_row (header : List Byte) (raw : Int) : Holds P (execHeaderReceived header raw) := by
  refine hP.event fun s => .ite (fun h => ?_) fun _ => .refl s
  have hair : s.rx.state ≠ .off := by rw [h.1]; decide
  split
  · exact (dropFrame_moves s hair).trans (finish_moves _)
  · exact (acceptHeader_moves s _ raw hair).trans (finish_moves _)

theorem syncWordFound_row : Holds P execSyncWordFound := by
  refine hP.event fun s => .ite (fun h => ?_) fun _ => .refl s
  have hair : s.rx.state ≠ .off := by rw [h]; decide
  exact .trans ((State.Moves.refl s).receiver rfl (.inr (.inr (.inr hair)))) (finish_moves _)

theorem shortGap_row : Holds P execShortGapExpiry := by
  refine hP.event fun s => ?_
  split
  · refine .ite (fun _ => .trans ?_ (finish_moves _)) fun _ => .refl s
    have hrx : State.Moves (s.rx.state ≠ .off) s { s with rx := s.rx.silenced } :=
      (State.Moves.refl s).receiver rfl (.inl rfl)
    exact hrx.aside rfl
  · exact .refl s

/-! ## The timers' rows -/

theorem initiationWait_row (slot : Nat) : Holds P (execInitiationWaitExpiry slot) := by
  refine hP.event fun s => ?_
  split
  · rename_i r hr
    refine .ite (fun _ => .trans (.ite (fun hc => openOn_candidate_moves s hr hc) fun _ => ?_) (finishLinks_moves _))
      fun _ => .refl s
    exact edit_moves s hr ⟨rfl, id⟩
  · exact .refl s

theorem settleExpiry_row (slot : Nat) : Holds P (execSettleExpiry slot) := by
  refine hP.event fun s => ?_
  split
  · rename_i r hr
    split
    · refine .ite (fun hdue => .trans ?_ (finish_moves _)) fun _ => .refl s
      split
      · exact shadowBegins_rebuild_moves s hr hdue.1 _ _
      · exact rebuildBaseline_moves s slot _ _
    · exact .refl s
  · exact .refl s

theorem trimHoldoff_row (slot : Nat) : Holds P (execTrimHoldoffExpiry slot) := by
  refine hP.event fun s => ?_
  split
  · rename_i r hr
    refine .ite (fun _ => .trans (assessTrim_rerate_moves hr ?_) (finish_moves _)) fun _ => .refl s
    exact ⟨rfl, rfl, id, rfl, rfl, fun _ => id⟩
  · exact .refl s

theorem acquisition_row : Holds P execAcquisitionExpiry := by
  refine outOfReset fun s hs => ?_
  split
  · rename_i h
    exact hP.moves (hP.acquired _ hs h.1) (.trans ((State.Moves.refl _).aside rfl) (finishLinks_moves _))
  · exact hs

/-! ## Every command -/

theorem exec_holds (c : Instr) : Holds P (exec c) := by
  cases c with
  | powerOn => exact next fun s _ => hP.reset s .power
  | resetLineAsserted => exact outOfReset fun s hs => hP.asserted hs
  | resetLineReleased =>
    refine next fun s hs => ?_
    split
    · exact hP.reset s .pin
    · exact hs
  | reset => exact hP.reset_row
  | transactionBegun =>
    refine outOfReset fun s hs => ?_
    split
    · exact hP.begun hs (by simpa using ‹s.port.isNone = true›)
    · exact hs
  | portByteShifted data => exact outOfReset fun s hs => hP.byte data hs
  | transactionCutShort => exact hP.cutShort_row
  | unknownCommand => exact hP.unknown_row
  | loadSettings => exact hP.load_row
  | start => exact hP.start_row
  | stop => exact hP.stop_row
  | send => exact hP.send_row
  | takeFrame => exact hP.takeFrame_row
  | takeReports => exact hP.takeReports_row
  | readSettings | readNeighbours | readStation | checkRead => exact hP.command fun _ _ hs => hs
  | reseed =>
    refine hP.command fun p s hs => ?_
    unfold reseedEffect
    split
    · exact hP.moves hs ((rebuildBaseline_moves s _ _ _).trans (finish_moves _))
    · exact hs
  | forget =>
    refine hP.command fun p s hs => ?_
    unfold forgetEffect
    split
    · exact hP.moves hs ((removeRecord_moves s _ _).trans (finishLinks_moves _))
    · exact hs
  | checkStart =>
    refine hP.command fun p s hs => ?_
    unfold checkStartEffect
    split
    · exact hP.moves hs (.trans ((State.Moves.refl s).aside rfl) ((readyProbe_moves _).trans (finish_moves _)))
    · exact hs
  | checkStop => exact hP.command fun p s hs => hP.moves hs ((endCheck_moves s _).trans (finish_moves _))
  | checkFreeze =>
    refine hP.command fun p s hs => ?_
    unfold checkFreezeEffect
    split
    · exact hs
    · exact hP.moves hs ((State.Moves.refl s).aside rfl)
  | mediumBusyChange c => exact hP.carrier_row c
  | syncWordFound => exact hP.syncWordFound_row
  | headerAbandoned => exact hP.headerAbandoned_row
  | headerReceived header raw => exact hP.headerReceived_row header raw
  | frameEnd body => exact hP.frameEnd_row body
  | frameTruncated => exact hP.frameTruncated_row
  | discardEnd => exact hP.discardEnd_row
  | guardGapComplete =>
    exact hP.event fun s => .ite (fun _ => .trans ((State.Moves.refl s).aside rfl)
      ((countDown_moves _ _).trans (finish_moves _))) fun _ => .refl s
  | backoffSlotEnd =>
    exact hP.event fun s => .ite (fun _ => (countDown_moves s _).trans (finish_moves _)) fun _ => .refl s
  | transmissionEnd =>
    refine hP.event fun s => ?_
    split
    · exact .ite (fun _ => (sent_moves s _).trans (finish_moves _)) fun _ => .refl s
    · exact .refl s
  | shortGapExpiry => exact hP.shortGap_row
  | ackTransmissionEnd =>
    refine hP.event fun s => ?_
    split
    · exact .ite (fun _ => .trans ((State.Moves.refl s).aside rfl) (finish_moves _)) fun _ => .refl s
    · exact .refl s
  | ackWaitExpiry =>
    exact hP.event fun s => .ite (fun _ => (settleAttempt_moves s _).trans (finishLinks_moves _)) fun _ => .refl s
  | silenceLimitReached slot =>
    refine hP.event fun s => ?_
    split
    · exact .ite (fun _ => (loseLink_moves s slot _).trans (finishLinks_moves _)) fun _ => .refl s
    · exact .refl s
  | aged slot =>
    refine hP.event fun s => ?_
    split
    · exact .ite (fun _ => (removeRecord_moves s slot _).trans (finishLinks_moves _)) fun _ => .refl s
    · exact .refl s
  | initiationWaitExpiry slot => exact hP.initiationWait_row slot
  | exchangeTimeout slot =>
    refine hP.event fun s => ?_
    split
    · exact .ite (fun _ => (failExchange_moves s slot).trans (finishLinks_moves _)) fun _ => .refl s
    · exact .refl s
  | offerHoldoffExpiry slot =>
    refine hP.event fun s => ?_
    split
    · rename_i r hr
      refine .ite (fun _ => .trans (edit_moves s hr ?_) (finishLinks_moves _)) fun _ => .refl s
      exact ⟨rfl, id⟩
    · exact .refl s
  | briefExpiry slot =>
    refine hP.event fun s => ?_
    split
    · rename_i r hr
      exact .ite (fun _ => (shadowBegins_announced_moves s hr).trans (finish_moves _)) fun _ => .refl s
    · exact .refl s
  | settleExpiry slot => exact hP.settleExpiry_row slot
  | settleTimeout slot =>
    refine hP.event fun s => ?_
    split
    · exact .ite (fun _ => (endTrim_moves s slot _).trans (finish_moves _)) fun _ => .refl s
    · exact .refl s
  | trimHoldoffExpiry slot => exact hP.trimHoldoff_row slot
  | waitLimitExpiry position =>
    refine hP.event fun s => ?_
    split
    · exact .ite (fun _ => (waitTest_moves s _).trans (finish_moves _)) fun _ => .refl s
    · exact .refl s
  | routeAgeExpiry dest =>
    exact hP.event fun s => .ite (fun _ => .trans (.aside (State.Move.pathsGo s _ List.filter_sublist).moves rfl)
      (finish_moves _)) fun _ => .refl s
  | acquisitionExpiry => exact hP.acquisition_row
  | stepDownExpiry =>
    exact hP.event fun s => .ite (fun _ => .trans ((State.Moves.refl s).aside rfl)
      ((putReport_moves _ _ _ _).trans (finish_moves _))) fun _ => .refl s
  | beaconDue =>
    refine hP.event fun s => ?_
    split
    · exact .ite (fun _ => .trans ((State.Moves.refl s).aside rfl) (finish_moves _)) fun _ => .refl s
    · exact .refl s
  | listenPeriodEnd =>
    exact hP.event fun s => .ite (fun _ => .trans ((State.Moves.refl s).aside rfl) (finish_moves _)) fun _ => .refl s
  | peerWindowEnd slot =>
    refine hP.event fun s => ?_
    split
    · rename_i r hr
      refine .ite (fun _ => edit_moves s hr ?_) fun _ => .refl s
      exact ⟨rfl, id⟩
    · exact .refl s
  | checkPaceExpiry =>
    refine hP.event fun s => ?_
    split
    · exact .ite (fun _ => (readyProbe_moves s).trans (finish_moves _)) fun _ => .refl s
    · exact .refl s
  | reflectTimeout =>
    refine hP.event fun s => ?_
    split
    · exact .ite (fun _ => (probeSettled_moves s _).trans (finish_moves _)) fun _ => .refl s
    · exact .refl s

theorem step_holds : Holds P step := by
  intro s t hs h
  unfold step at h
  split at h
  · cases h
    exact hP.tick hs
  · exact hP.exec_holds _ _ t (hP.queue _ hs) h

end State.KeptBy

end Sys2Proof.Machine


/-! A byte on the port (R159, R163): what it moves of the transaction and of the pool. -/

namespace Sys2Proof.Machine

theorem sound_iff (t : Transaction) :
    t.sound = true ↔ (t.sendHeld = true → t.code = 0x10 ∧ t.phase ≠ .command ∧ t.status.isSome = true) := by
  simp only [Transaction.sound, Bool.or_eq_true, Bool.not_eq_true', Bool.and_eq_true, decide_eq_true_eq]
  cases t.sendHeld <;> simp [and_assoc]

/-- What a SEND judged OK found (R163). -/
theorem judgeSend_ok {s : State} {args : List Byte} (h : s.judgeSend args = .ok) :
    0 < s.free ∧ s.fwd.length < 40 ∧ s.hostShare < 16 := by
  unfold State.judgeSend at h
  split at h
  · cases h
  · split at h
    · cases h
    · split at h
      · cases h
      · rename_i hfull
        simp only [State.refusesSend, Bool.or_eq_true, decide_eq_true_eq, not_or] at hfull
        omega

/-- A byte has moved the transaction `t` and no buffer, but for the one that a SEND judged OK takes. -/
def State.PortMoved (s : State) (t : Transaction) (u : State) : Prop :=
  ∃ t' out free, u = { s with port := some t', pdo := some out, free := free } ∧ t'.sound = true ∧
    (t'.sendHeld = t.sendHeld ∧ free = s.free ∨
      t.sendHeld = false ∧ t'.sendHeld = true ∧ free + 1 = s.free ∧ s.fwd.length < 40 ∧ s.hostShare < 16)

section
variable {s : State} {t : Transaction} (h : t.sound = true)

/-- A transaction that holds what it held. -/
theorem portMoved_same {t' : Transaction} (out : Byte) (hsound : t'.sound = true) (hheld : t'.sendHeld = t.sendHeld) :
    s.PortMoved t (s.withPort t' out) := ⟨t', out, s.free, rfl, hsound, .inl ⟨hheld, rfl⟩⟩

theorem advance_eq (t : Transaction) : ∃ ph, t.advance = { t with phase := ph } ∧ (ph = t.phase ∨ ph = .spent) := by
  unfold Transaction.advance
  split
  · exact ⟨_, rfl, .inr rfl⟩
  · exact ⟨_, rfl, .inl rfl⟩

theorem advance_held (t : Transaction) : t.advance.sendHeld = t.sendHeld := by
  obtain ⟨ph, he, -⟩ := advance_eq t
  rw [he]

theorem answered_sound {u : State} {st : Status} (hcode : t.sendHeld = true → t.code = 0x10) :
    (t.answered st u).sound = true :=
  (sound_iff _).mpr fun hh => ⟨hcode hh, (fun hph => nomatch (hph : PortPhase.result = .command)), rfl⟩

include h

theorem advance_sound : t.advance.sound = true := by
  obtain ⟨ph, he, hph⟩ := advance_eq t
  rw [sound_iff] at h ⊢
  rw [he]
  intro hh
  obtain ⟨hcode, hphase, hst⟩ := h hh
  refine ⟨hcode, ?_, hst⟩
  rcases hph with rfl | rfl
  · exact hphase
  · exact fun hph => nomatch (hph : PortPhase.spent = .command)

/-- In the COMMAND phase no SEND holds a buffer. -/
theorem not_held_of_command (hph : t.phase = .command) : t.sendHeld = false := by
  cases hh : t.sendHeld with
  | false => rfl
  | true => exact absurd hph ((sound_iff t).mp h hh).2.1

theorem shiftCommand_moved (data : Byte) (hph : t.phase = .command) : s.PortMoved t (s.shiftCommand data t) := by
  have hnone := not_held_of_command h hph
  have hs (t' : Transaction) (hheld : t'.sendHeld = t.sendHeld) : t'.sound = true :=
    (sound_iff t').mpr fun hh => by
      rw [hheld, hnone] at hh
      cases hh
  unfold State.shiftCommand
  split
  · exact portMoved_same _ (hs _ rfl) rfl
  · exact portMoved_same _ (hs _ rfl) rfl
  · exact portMoved_same _ (hs _ rfl) rfl

omit h in
/-- The byte that completes SEND's length field: judged OK, it takes a buffer (R121, R163). -/
theorem sendLengthComplete_moved {t1 : Transaction} (hph : t1.phase ≠ .command) (hcode : t1.code = 0x10)
    (hnone : t.sendHeld = false) : s.PortMoved t (s.sendLengthComplete t1) := by
  unfold State.sendLengthComplete
  dsimp only
  by_cases hok : s.judgeSend t1.args = .ok
  · obtain ⟨h0, h40, h16⟩ := judgeSend_ok hok
    have hheld : decide (s.judgeSend t1.args = .ok) = true := decide_eq_true hok
    have hfree : s.free - 1 + 1 = s.free := Nat.sub_add_cancel h0
    rw [if_pos hok]
    split
    · exact ⟨_, _, _, rfl, answered_sound fun _ => hcode, .inr ⟨hnone, hheld, hfree, h40, h16⟩⟩
    · exact ⟨_, _, _, rfl, (sound_iff _).mpr fun _ => ⟨hcode, hph, rfl⟩, .inr ⟨hnone, hheld, hfree, h40, h16⟩⟩
  · have hheld : decide (s.judgeSend t1.args = .ok) = t.sendHeld := by rw [hnone]; exact decide_eq_false hok
    rw [if_neg hok]
    split
    · exact portMoved_same _ (answered_sound fun _ => hcode) hheld
    · exact portMoved_same _ ((sound_iff _).mpr fun _ => ⟨hcode, hph, rfl⟩) hheld

theorem shiftArgument_moved (data : Byte) (hph : t.phase = .arguments) :
    s.PortMoved t (s.shiftArgument data t) := by
  have hheld := (sound_iff t).mp h
  unfold State.shiftArgument
  dsimp only
  split
  · exact portMoved_same _ ((sound_iff _).mpr hheld) rfl
  · split
    · exact portMoved_same _ (answered_sound fun hh => (hheld hh).1) rfl
    · rename_i hpay
      split
      · rename_i hcode
        refine sendLengthComplete_moved ?_ hcode ?_
        · rw [hph]
          decide
        · cases hh : t.sendHeld with
          | false => rfl
          | true => exact absurd (by simp [hcode, (hheld hh).2.2]) hpay
      · exact portMoved_same _ (answered_sound fun hh => (hheld hh).1) rfl

theorem shiftResult_moved : s.PortMoved t (s.shiftResult t) := by
  have hmoved (t' : Transaction) (out : Byte) (hs : t'.sound = true) (hh : t'.sendHeld = t.sendHeld) :
      s.PortMoved t (s.withPort t'.advance out) :=
    portMoved_same out (advance_sound hs) ((advance_held t').trans hh)
  have hsound := (sound_iff t).mp h
  unfold State.shiftResult
  split
  · exact hmoved _ _ ((sound_iff _).mpr hsound) rfl
  · split
    · exact hmoved _ _ ((sound_iff _).mpr hsound) rfl
    · split
      · exact hmoved _ _ ((sound_iff _).mpr hsound) rfl
      · exact hmoved _ _ h rfl

theorem shiftByte_moved (data : Byte) (hp : s.port = some t) : s.PortMoved t (s.shiftByte data) := by
  unfold State.shiftByte
  rw [hp]
  dsimp only
  split
  · exact shiftCommand_moved h data ‹_›
  · exact shiftArgument_moved h data ‹_›
  · exact shiftResult_moved h
  · exact portMoved_same _ h rfl

end

theorem portSound_of_some {s : State} {t : Transaction} (hp : s.port = some t) (h : s.portSound = true) :
    t.sound = true := by simpa [State.portSound, hp] using h

/-- Whatever the transaction, a byte moves the port and the pool alone. -/
theorem shiftByte_eq (s : State) (data : Byte) :
    ∃ port pdo free, s.shiftByte data = { s with port := port, pdo := pdo, free := free } := by
  have hsame (t : Transaction) (out : Byte) :
      ∃ port pdo free, s.withPort t out = { s with port := port, pdo := pdo, free := free } := ⟨_, _, _, rfl⟩
  have hsend (t : Transaction) :
      ∃ port pdo free, s.sendLengthComplete t = { s with port := port, pdo := pdo, free := free } := by
    unfold State.sendLengthComplete
    dsimp only
    by_cases hok : s.judgeSend t.args = .ok
    · rw [if_pos hok]
      split <;> exact ⟨_, _, _, rfl⟩
    · rw [if_neg hok]
      split <;> exact hsame _ _
  unfold State.shiftByte
  split
  · exact ⟨s.port, s.pdo, s.free, rfl⟩
  · split
    · unfold State.shiftCommand
      split <;> exact hsame _ _
    · unfold State.shiftArgument
      dsimp only
      split
      · exact hsame _ _
      · split
        · exact hsame _ _
        · split
          · exact hsend _
          · exact hsame _ _
    · unfold State.shiftResult
      split
      · exact hsame _ _
      · split
        · exact hsame _ _
        · split <;> exact hsame _ _
    · exact hsame _ _

theorem shiftByte_of_closed {s : State} (data : Byte) (hp : s.port = none) : s.shiftByte data = s := by
  simp [State.shiftByte, hp]

end Sys2Proof.Machine


/-! The capacities (R123, R131, R132, R134, R167): every move and every other change of a command keeps them. -/

namespace Sys2Proof.Machine

/-! ## The report queue (R167) -/

theorem coalesce_kind (old body : ReportBody) : (coalesce old body).kind = body.kind := by
  unfold coalesce
  split <;> rfl

/-- An overwriting changes one report, and not its key. -/
theorem overwrite_some {a : Addr} {slot : Option Nat} {body : ReportBody} {n : Nat} {l q : List Report}
    (h : overwrite a slot body n l = some q) :
    q.map (fun r => (r.body.kind, r.addr)) = l.map (fun r => (r.body.kind, r.addr)) := by
  induction l generalizing q with
  | nil => cases h
  | cons r l ih =>
    simp only [overwrite] at h
    split at h
    · rename_i hk
      cases h
      simp only [hasKey, Bool.and_eq_true, decide_eq_true_eq] at hk
      simp [coalesce_kind, hk.1, hk.2]
    · obtain ⟨q', hq', rfl⟩ := Option.map_eq_some_iff.mp h
      simp [ih hq']

/-- With nothing overwritten no pending report has the key. -/
theorem overwrite_none {a : Addr} {slot : Option Nat} {body : ReportBody} {n : Nat} {l : List Report}
    (h : overwrite a slot body n l = none) : ∀ r ∈ l, r.body.kind ≠ body.kind ∨ r.addr ≠ a := by
  induction l with
  | nil => simp
  | cons r l ih =>
    simp only [overwrite] at h
    split at h
    · cases h
    · rename_i hk
      simp only [hasKey, Bool.and_eq_true, decide_eq_true_eq, not_and_or] at hk
      intro q hq
      rcases List.mem_cons.mp hq with rfl | hq
      · exact hk
      · exact ih (Option.map_eq_none_iff.mp h) q hq

theorem pairwise_otherKey_iff (l : List Report) :
    l.Pairwise Report.otherKey ↔ (l.map fun r => (r.body.kind, r.addr)).Nodup := by
  rw [List.Nodup, List.pairwise_map]
  refine ⟨fun h => h.imp fun {a b} hk heq => ?_, fun h => h.imp fun {a b} hne => ?_⟩
  · obtain ⟨hkind, haddr⟩ := Prod.mk.inj heq
    exact hk.elim (fun h => h hkind) fun h => h haddr
  · exact not_and_or.mp fun ⟨hkind, haddr⟩ => hne (Prod.ext hkind haddr)

theorem queueOk_putReport {s : State} (a : Addr) (slot : Option Nat) (body : ReportBody) (h : queueOk s.reports) :
    queueOk (s.putReport a slot body).reports := by
  obtain ⟨hlen, hkeys⟩ := h
  unfold State.putReport
  split
  · rename_i q hq
    refine ⟨(overwrite_length _ _ _ _ _ _ hq).le.trans hlen, ?_⟩
    rw [pairwise_otherKey_iff] at hkeys ⊢
    rwa [overwrite_some hq]
  · rename_i hnone
    split
    · refine ⟨by simpa using ‹s.reports.length < 32›, List.pairwise_append.mpr ⟨hkeys, by simp, ?_⟩⟩
      intro r hr q hq
      cases List.mem_singleton.mp hq
      exact overwrite_none hnone r hr
    · exact ⟨hlen, hkeys⟩

theorem putReport_length_le {s : State} (a : Addr) (slot : Option Nat) (body : ReportBody) (h : s.reports.length ≤ 32) :
    (s.putReport a slot body).reports.length ≤ 32 := by
  unfold State.putReport
  split
  · exact (overwrite_length _ _ _ _ _ _ ‹_›).le.trans h
  · split
    · simpa using ‹s.reports.length < 32›
    · exact h

/-- What TAKE REPORTS leaves is part of the queue, key by key (R165). -/
theorem removeTaken_sublist (ns : List Snap) (l : List Report) :
    ((removeTaken ns l).map fun r => (r.body.kind, r.addr)).Sublist (l.map fun r => (r.body.kind, r.addr)) := by
  have hkey (n : Nat) (r : Report) :
      ((afterRead n r).body.kind, (afterRead n r).addr) = (r.body.kind, r.addr) := by
    unfold afterRead
    split
    · rename_i h
      simp [h, ReportBody.kind]
    · rfl
  induction ns generalizing l with
  | nil => simp [removeTaken]
  | cons n ns ih =>
    cases l with
    | nil => simp [removeTaken]
    | cons r l =>
      unfold removeTaken
      split
      · exact (ih l).trans (List.sublist_cons_self _ _)
      · simp only [List.map_cons, hkey]
        exact (ih l).cons_cons _

theorem queueOk_removeTaken {q : List Report} (ns : List Snap) (h : queueOk q) : queueOk (removeTaken ns q) := by
  obtain ⟨hlen, hkeys⟩ := h
  have hsub := removeTaken_sublist ns q
  refine ⟨(by simpa using hsub.length_le : (removeTaken ns q).length ≤ q.length).trans hlen, ?_⟩
  rw [pairwise_otherKey_iff] at hkeys ⊢
  exact hkeys.sublist hsub

/-! ## Seen list and return paths (R131, R132) -/

theorem seenInsert_bounds (p : Addr × Word16) {l : List (Addr × Word16)} (hlen : l.length ≤ 32) (hnd : l.Nodup) :
    (seenInsert p l).length ≤ 32 ∧ (seenInsert p l).Nodup := by
  have hsub : (if (l.filter fun q => decide (q ≠ p)).length < 32 then l.filter fun q => decide (q ≠ p)
      else (l.filter fun q => decide (q ≠ p)).drop 1).Sublist (l.filter fun q => decide (q ≠ p)) := by
    split
    · exact .refl _
    · exact List.drop_sublist _ _
  unfold seenInsert
  refine ⟨?_, List.nodup_append.mpr ⟨(hnd.filter _).sublist hsub, by simp, ?_⟩⟩
  · have hfl := (List.length_filter_le (fun q => decide (q ≠ p)) l).trans hlen
    simp only [List.length_append, List.length_singleton]
    split
    · omega
    · rw [List.length_drop]
      omega
  · intro q hq r hr
    cases List.mem_singleton.mp hr
    simpa using (List.mem_filter.mp (hsub.subset hq)).2

/-- What a full return path table gives up is one of its entries (R132). -/
theorem oldestPath_mem {l : List ReturnPath} {q : ReturnPath} (h : oldestPath l = some q) : q ∈ l := by
  induction l generalizing q with
  | nil => cases h
  | cons p l ih =>
    simp only [oldestPath] at h
    split at h
    · cases h
      exact List.mem_cons_self
    · rename_i r hr
      split at h
      · cases h
        exact List.mem_cons_of_mem _ (ih hr)
      · cases h
        exact List.mem_cons_self

theorem learnPath_bounds (origin : Addr) (via now : Nat) {l : List ReturnPath} (hlen : l.length ≤ 32)
    (hnd : (l.map ReturnPath.dest).Nodup) :
    (learnPath origin via now l).length ≤ 32 ∧ ((learnPath origin via now l).map ReturnPath.dest).Nodup := by
  unfold learnPath
  dsimp only
  split
  · refine ⟨by simpa using hlen, ?_⟩
    rw [List.map_map]
    convert hnd using 2
    funext p
    simp only [Function.comp]
    split
    · exact (‹p.dest = origin›).symm
    · rfl
  · rename_i hnew
    have hnew : origin ∉ l.map ReturnPath.dest := by
      intro hmem
      obtain ⟨p, hp, hd⟩ := List.mem_map.mp hmem
      exact hnew (List.any_eq_true.mpr ⟨p, hp, by simpa using hd⟩)
    have hjoin {l' : List ReturnPath} (hsub : l'.Sublist l) (hlen' : l'.length < 32) :
        (l' ++ [(⟨origin, via, now⟩ : ReturnPath)]).length ≤ 32 ∧
          ((l' ++ [(⟨origin, via, now⟩ : ReturnPath)]).map ReturnPath.dest).Nodup := by
      refine ⟨by simpa using hlen', ?_⟩
      rw [List.map_append, List.nodup_append]
      refine ⟨hnd.sublist (hsub.map _), by simp, ?_⟩
      intro a ha b hb heq
      simp only [List.map_cons, List.map_nil, List.mem_singleton] at hb
      exact hnew ((hsub.map _).subset (hb ▸ heq ▸ ha))
    split
    · exact hjoin (.refl _) ‹_›
    · split
      · rename_i q hq
        refine hjoin (List.erase_sublist ..) ?_
        have := List.length_erase_of_mem (oldestPath_mem hq)
        have := List.length_pos_of_mem (oldestPath_mem hq)
        omega
      · exact ⟨by simp, by simp⟩

/-! ## The moves -/

theorem reselect_fwd (s : State) : s.reselect.fwd = s.fwd ∧ s.reselect.ring = s.ring ∧ s.reselect.seen = s.seen ∧
    s.reselect.paths = s.paths ∧ s.reselect.port = s.port := by
  obtain ⟨_, _, _, _, _, _, _, h, -⟩ := reselect_eq s
  rw [h]
  exact ⟨rfl, rfl, rfl, rfl, rfl⟩

theorem reselect_reports (s : State) : s.reselect.reports = s.reports ∨
    ∃ u : State, ∃ slot body, u.reports = s.reports ∧ s.reselect = u.putReport 0 slot body := by
  unfold State.reselect
  split
  · exact .inl rfl
  · exact .inr ⟨{ s with nextHop := hopOf s.selectHop, advCost := s.costThrough s.selectHop,
                         workAvailable := s.workAvailable || decide (s.nextHop ≠ hopOf s.selectHop) }, _, _, rfl, rfl⟩

/-- The capacities are of the collections and of the port alone. -/
theorem boundsInv_of_eq {a b : State} (h : a.BoundsInv) (hslots : b.slots.length = a.slots.length) (hfwd : b.fwd = a.fwd)
    (hport : b.port = a.port) (hring : b.ring = a.ring) (hseen : b.seen = a.seen) (hpaths : b.paths = a.paths)
    (hreports : b.reports.length ≤ 32) : b.BoundsInv := by
  obtain ⟨h1, h2, h3, h4, h5, h6, h7, h8, -, h10⟩ := h
  simp only [State.BoundsInv, State.hostShare, State.portHolds, State.portSound, hslots, hfwd, hport, hring, hseen,
    hpaths] at *
  exact ⟨h1, h2, h3, h4, h5, h6, h7, h8, hreports, h10⟩

theorem boundsInv_reselect {s : State} (h : s.BoundsInv) : s.reselect.BoundsInv := by
  obtain ⟨hfwd, hring, hseen, hpaths, hport⟩ := reselect_fwd s
  refine boundsInv_of_eq h (by rw [reselect_slots]) hfwd hport hring hseen hpaths ?_
  obtain ⟨-, -, -, -, -, -, -, -, hlen, -⟩ := h
  rcases reselect_reports s with hr | ⟨u, slot, body, hu, hr⟩
  · rwa [hr]
  · rw [hr]
    exact putReport_length_le _ _ _ (hu ▸ hlen)

theorem boundsInv_setSlot {s : State} (i : Nat) (o : Option Record) (h : s.BoundsInv) : (s.setSlot i o).BoundsInv := by
  obtain ⟨-, -, -, -, -, -, -, -, hlen, -⟩ := id h
  exact boundsInv_of_eq h (by simp) rfl rfl rfl rfl rfl hlen

theorem Move.boundsInv {air : Prop} {a b : State} (hm : State.Move air a b) (h : a.BoundsInv) : b.BoundsInv := by
  obtain ⟨h1, h2, h3, h4, h5, h6, h7, h8, h9, h10⟩ := id h
  cases hm with
  | aside | receiver => exact h
  | report addr slot body =>
    obtain ⟨q, o, n, d, he⟩ := putReport_eq a addr slot body
    have hlen := putReport_length_le addr slot body h9
    rw [he] at hlen ⊢
    exact boundsInv_of_eq h rfl rfl rfl rfl rfl rfl hlen
  | queue fwd hlen hhost =>
    refine ⟨h1, ?_, ?_, h4, h5, h6, h7, h8, h9, h10⟩
    · exact (Nat.add_le_add_right hlen _).trans h2
    · exact (Nat.add_le_add_right hhost _).trans h3
  | transit e hplace htag =>
    refine ⟨h1, ?_, ?_, h4, h5, h6, h7, h8, h9, h10⟩
    · have : (a.fwd ++ [e]).length + one a.portHolds = a.placesTaken + 1 := by
        simp [State.placesTaken, one]
        omega
      exact this.le.trans hplace
    · have : State.hostShare { a with fwd := a.fwd ++ [e] } = a.hostShare := by
        simp [State.hostShare, htag]
      exact (congrArg (· + one a.portHolds) this).le.trans h3
  | delivered d hroom => exact ⟨h1, h2, h3, by simpa using hroom, h5, h6, h7, h8, h9, h10⟩
  | noted p =>
    obtain ⟨hlen, hnd⟩ := seenInsert_bounds p h5 h6
    exact ⟨h1, h2, h3, h4, hlen, hnd, h7, h8, h9, h10⟩
  | pathsGo paths hsub =>
    exact ⟨h1, h2, h3, h4, h5, h6, hsub.length_le.trans h7, h8.sublist (hsub.map _), h9, h10⟩
  | learned i r origin now hr hup =>
    obtain ⟨hlen, hnd⟩ := learnPath_bounds origin i now h7 h8
    exact ⟨h1, h2, h3, h4, h5, h6, hlen, hnd, h9, h10⟩
  | edited i | admitted i => exact boundsInv_setSlot i _ h
  | reseated i | removed i => exact boundsInv_reselect (boundsInv_setSlot i _ h)

theorem Move.reportKeys {air : Prop} {a b : State} (hm : State.Move air a b) (h : queueOk a.reports) :
    queueOk b.reports := by
  have hre (u : State) (hu : u.reports = a.reports) : queueOk u.reselect.reports := by
    rcases reselect_reports u with hr | ⟨v, slot, body, hv, hr⟩
    · rwa [hr, hu]
    · rw [hr]
      exact queueOk_putReport _ _ _ (hv.trans hu ▸ h)
  cases hm with
  | report addr slot body => exact queueOk_putReport addr slot body h
  | reseated | removed => exact hre _ rfl
  | _ => exact h

/-! ## Every command -/

theorem resetWith_boundsInv (s : State) (cause : ResetCause) : (s.resetWith cause).BoundsInv :=
  ⟨rfl, Nat.zero_le _, Nat.zero_le _, Nat.zero_le _, Nat.zero_le _, List.nodup_nil, Nat.zero_le _, List.nodup_nil,
    Nat.le_add_left 1 31, rfl⟩

/-- A port that holds nothing more. -/
theorem boundsInv_port {a b : State} (h : a.BoundsInv) (hb : b = { a with port := b.port, pdo := b.pdo, free := b.free })
    (hheld : b.portHolds = true → a.portHolds = true) (hsound : b.portSound = true) : b.BoundsInv := by
  obtain ⟨h1, h2, h3, h4, h5, h6, h7, h8, h9, -⟩ := h
  have hone : one b.portHolds ≤ one a.portHolds := by
    cases hb' : b.portHolds with
    | false => exact Nat.zero_le _
    | true => rw [hheld hb']
  have hfwd : b.fwd = a.fwd := by rw [hb]
  have hshare : b.hostShare = a.hostShare := by rw [State.hostShare, hfwd]; rfl
  refine ⟨?_, ?_, ?_, ?_, ?_, ?_, ?_, ?_, ?_, hsound⟩
  · rw [hb]; exact h1
  · rw [hfwd]; omega
  · rw [hshare]; omega
  all_goals rw [hb]; assumption

theorem closePort_boundsInv {s : State} (h : s.BoundsInv) : s.closePort.BoundsInv :=
  boundsInv_port h rfl (fun hh => nomatch hh) rfl

theorem shiftByte_boundsInv {s : State} (data : Byte) (h : s.BoundsInv) : (s.shiftByte data).BoundsInv := by
  obtain ⟨h1, h2, h3, h4, h5, h6, h7, h8, h9, h10⟩ := id h
  cases hp : s.port with
  | none => rwa [shiftByte_of_closed data hp]
  | some t =>
    obtain ⟨t', out, free, he, hsound, hcase⟩ := shiftByte_moved (portSound_of_some hp h10) data hp
    rw [he]
    rcases hcase with ⟨hheld, -⟩ | ⟨-, hheld, -, h40, h16⟩
    · refine boundsInv_port h rfl (fun hh => ?_) hsound
      rw [State.portHolds, hp]
      exact hheld.symm.trans hh
    · refine ⟨h1, ?_, ?_, h4, h5, h6, h7, h8, h9, hsound⟩
      · show s.fwd.length + one t'.sendHeld ≤ 40
        rw [hheld]
        exact h40
      · show s.hostShare + one t'.sendHeld ≤ 16
        rw [hheld]
        exact h16

theorem boundsInv_kept : State.KeptBy State.BoundsInv where
  moves h hm := hm.keeps (fun _ _ => Move.boundsInv) h
  queue _ h := h
  tick {s} h := by
    obtain ⟨-, -, -, -, -, -, -, -, h9, -⟩ := id h
    refine boundsInv_of_eq h ?_ rfl rfl rfl rfl rfl h9
    simp only [State.tick]
    split <;> simp
  reset := resetWith_boundsInv
  asserted {s} h := have hclosed : s.closePort.BoundsInv := closePort_boundsInv h; hclosed
  carrier _ h := h
  begun h _ := boundsInv_port h rfl (fun hh => nomatch hh) rfl
  byte := shiftByte_boundsInv
  closed := closePort_boundsInv
  recorded _ h := h
  loaded _ h _ := h
  started _ h _ := h
  acquired _ h _ := h
  stopped {s} h _ := by
    have hrep : ((drainReports s.fwd s).endCheck .stationStopped).BoundsInv :=
      ((drainReports_moves (air := False) s s.fwd).trans (endCheck_moves _ _)).keeps (fun _ _ => Move.boundsInv) h
    obtain ⟨-, h2, h3, h4, -, -, -, -, h9, h10⟩ := hrep
    exact ⟨rfl, (Nat.add_le_add_right (Nat.zero_le _) _).trans h2, (Nat.add_le_add_right (Nat.zero_le _) _).trans h3, h4,
      Nat.zero_le _, List.nodup_nil, Nat.zero_le _, List.nodup_nil, h9, h10⟩
  sent {s} p h hp hheld := by
    obtain ⟨h1, h2, h3, h4, h5, h6, h7, h8, h9, -⟩ := h
    have hone : one s.portHolds = 1 := by rw [State.portHolds, hp]; exact congrArg one hheld
    rw [hone] at h2 h3
    refine ⟨h1, ?_, ?_, h4, h5, h6, h7, h8, h9, rfl⟩
    · simpa [State.portHolds, holdsBuffer] using h2
    · simpa [State.portHolds, holdsBuffer, State.hostShare, sendEntry] using h3
  taken _ h hlen := by
    obtain ⟨h1, h2, h3, h4, h5, h6, h7, h8, h9, h10⟩ := h
    exact ⟨h1, h2, h3, hlen.trans h4, h5, h6, h7, h8, h9, h10⟩
  read {s} ns o h := by
    obtain ⟨h1, h2, h3, h4, h5, h6, h7, h8, h9, h10⟩ := h
    have hlen : (removeTaken ns s.reports).length ≤ s.reports.length := by
      simpa using (removeTaken_sublist ns s.reports).length_le
    exact ⟨h1, h2, h3, h4, h5, h6, h7, h8, hlen.trans h9, h10⟩

theorem queueOk_kept : State.KeptBy fun s => queueOk s.reports where
  moves h hm := hm.keeps (P := fun s => queueOk s.reports) (fun _ _ => Move.reportKeys) h
  queue _ h := h
  tick h := h
  reset _ _ := ⟨Nat.le_add_left 1 31, List.pairwise_singleton _ _⟩
  asserted h := h
  carrier _ h := h
  begun h _ := h
  byte {s} data h := by
    obtain ⟨_, _, _, he⟩ := shiftByte_eq s data
    rwa [he]
  closed h := h
  recorded _ h := h
  loaded _ h _ := h
  started _ h _ := h
  acquired _ h _ := h
  stopped {s} h _ := by
    have hrep : queueOk ((drainReports s.fwd s).endCheck .stationStopped).reports :=
      ((drainReports_moves (air := False) s s.fwd).trans (endCheck_moves _ .stationStopped)).keeps
        (P := fun s => queueOk s.reports) (fun _ _ => Move.reportKeys) h
    exact hrep
  sent _ h _ _ := h
  taken _ h _ := h
  read ns _ h := queueOk_removeTaken ns h

/-- Settles O8: the capacities, and the keys of the report queue, go through the moves. -/
theorem stepKeepsCapacities : Obligations.StepKeepsCapacities :=
  ⟨fun s t h hs => boundsInv_kept.step_holds s t h hs, fun s t h hs => queueOk_kept.step_holds s t h hs⟩

end Sys2Proof.Machine


/-! The table (R25): 24 slots, no two records with one peer, at most 12 UP; every move and every other change of a
command keeps them. -/

namespace Sys2Proof.Machine

/-! ## The table read slot by slot -/

/-- No two records of the table have one peer. -/
def State.OnePeer (s : State) : Prop :=
  ∀ i j r q, s.rec? i = some r → s.rec? j = some q → r.peer = q.peer → i = j

theorem peers_nodup_iff (s : State) : s.peers.Nodup ↔ s.OnePeer := by
  have hlt {i : Nat} {r : Record} (h : s.rec? i = some r) : ∃ hi : i < s.slots.length, s.slots[i] = some r :=
    List.getElem?_eq_some_iff.mp ((rec?_eq_some_iff s i r).mp h)
  have hrec {i : Nat} {r : Record} (hi : i < s.slots.length) (h : s.slots[i] = some r) : s.rec? i = some r :=
    (rec?_eq_some_iff s i r).mpr (List.getElem?_eq_some_iff.mpr ⟨hi, h⟩)
  rw [State.peers, List.Nodup, List.pairwise_map, List.pairwise_filterMap, List.pairwise_iff_getElem]
  constructor
  · intro h i j r q hr hq hpeer
    obtain ⟨hi, hr⟩ := hlt hr
    obtain ⟨hj, hq⟩ := hlt hq
    rcases Nat.lt_trichotomy i j with hij | hij | hij
    · exact absurd hpeer (h i j hi hj hij r hr q hq)
    · exact hij
    · exact absurd hpeer.symm (h j i hj hi hij q hq r hr)
  · intro h i j hi hj hij r hr q hq hpeer
    exact absurd (h i j r q (hrec hi hr) (hrec hj hq) hpeer) hij.ne

/-- Writing a slot moves the number of records UP by what stood there and what stands there now. -/
theorem upCount_setSlot {s : State} {i : Nat} (o : Option Record) (hi : i < s.slots.length) :
    (s.setSlot i o).upCount + one (isUp (s.rec? i)) = s.upCount + one (isUp o) := by
  have hrec : s.rec? i = s.slots[i] := by simp [State.rec?, List.getElem?_eq_getElem hi]
  have hpos : isUp s.slots[i] = true → 0 < s.slots.countP isUp :=
    fun h => List.countP_pos_iff.mpr ⟨_, List.getElem_mem hi, h⟩
  have hset := List.countP_set (p := isUp) (a := o) hi
  rw [State.upCount, State.upCount, hrec, State.setSlot, hset]
  simp only [one]
  split
  · have := hpos ‹_›
    omega
  · omega

/-! ## The moves -/

theorem tableInv_congr {a b : State} (h : a.TableInv) (hslots : b.slots = a.slots) : b.TableInv := by
  simpa only [State.TableInv, State.peers, State.upCount, hslots] using h

/-- A slot written with a record of no other slot's peer, UP only where there is room. -/
theorem tableInv_setSlot {s : State} {i : Nat} {o : Option Record} (h : s.TableInv) (hi : i < s.slots.length)
    (hpeer : ∀ r, o = some r → ∀ j q, s.rec? j = some q → r.peer = q.peer → i = j)
    (hup : isUp o = true → isUp (s.rec? i) = true ∨ s.upCount < 12) : (s.setSlot i o).TableInv := by
  obtain ⟨hlen, hpeers, hcount⟩ := h
  rw [peers_nodup_iff] at hpeers
  refine ⟨by simpa [State.setSlot] using hlen, ?_, ?_⟩
  · rw [peers_nodup_iff]
    intro j k r q hr hq he
    rw [rec?_setSlot s i _ o hi] at hr hq
    split at hr <;> split at hq
    · omega
    · rename_i hj hk
      exact hj.trans (hpeer r hr k q hq he)
    · rename_i hj hk
      exact (hk.trans (hpeer q hq j r hr he.symm)).symm
    · exact hpeers j k r q hr hq he
  · have hset := upCount_setSlot o hi
    cases ho : isUp o with
    | false => simp [ho, one] at hset; omega
    | true =>
      rcases hup ho with hold | hroom
      · simp [ho, hold, one] at hset; omega
      · simp [ho, one] at hset; omega

theorem isUp_some_iff (r : Record) : isUp (some r) = true ↔ r.link = .up := decide_eq_true_iff

/-- A record's own slot is the only one of its peer. -/
theorem tableInv_own {s : State} {i : Nat} {r r' : Record} (h : s.TableInv) (hr : s.rec? i = some r)
    (hf : r.Follows s i r') : (s.setSlot i (some r')).TableInv := by
  refine tableInv_setSlot h (rec?_lt _ hr) ?_ fun hup => ?_
  · rintro _ ⟨⟩ j q hq he
    exact (peers_nodup_iff s).mp h.2.1 i j r q hr hq (hf.peer.symm.trans he)
  · rw [hr, isUp_some_iff]
    exact hf.up ((isUp_some_iff r').mp hup)

theorem Move.tableInv {air : Prop} {a b : State} (hm : State.Move air a b) (h : a.TableInv) : b.TableInv := by
  cases hm with
  | report addr slot body => exact tableInv_congr h (putReport_slots a addr slot body)
  | edited i r r' hr hf hsame => exact tableInv_own h hr hf
  | reseated i r r' hr hf => exact tableInv_congr (tableInv_own h hr hf) (reselect_slots _)
  | removed i r hr =>
    exact tableInv_congr (tableInv_setSlot h (rec?_lt _ hr) (fun _ ho => by cases ho) fun hup => by cases hup)
      (reselect_slots _)
  | admitted i r hair hempty hi hnew hlink =>
    refine tableInv_setSlot h hi ?_ fun hup => ?_
    · rintro _ ⟨⟩ j q hq he
      exact absurd he.symm ((findPeer_eq_none_iff a r.peer).mp hnew j q hq)
    · rw [isUp_some_iff, hlink] at hup
      exact nomatch hup
  | _ => exact tableInv_congr h rfl

/-! ## Every command -/

theorem tableInv_empty {s : State} (h : s.slots = List.replicate 24 none) : s.TableInv := by
  refine ⟨by rw [h]; rfl, ?_, ?_⟩
  · rw [State.peers, h]
    exact List.nodup_nil
  · rw [State.upCount, h]
    exact Nat.zero_le 12

/-- The silence of a record bears on no slot's peer and no link. -/
theorem tick_tableInv {s : State} (h : s.TableInv) : s.tick.TableInv := by
  obtain ⟨hlen, hpeers, hcount⟩ := id h
  unfold State.tick
  split
  · exact tableInv_congr h rfl
  · have hsame : isUp ∘ Option.map Record.silenced = isUp := funext fun o => by cases o <;> rfl
    have hmap (l : List (Option Record)) : ((l.map (Option.map Record.silenced)).filterMap id).map Record.peer =
        (l.filterMap id).map Record.peer := by
      rw [List.filterMap_map, List.map_filterMap, List.map_filterMap]
      exact congrArg (List.filterMap · l) (funext fun o => by cases o <;> rfl)
    refine ⟨(List.length_map _).trans hlen, ?_, ?_⟩
    · rw [State.peers, hmap]
      exact hpeers
    · rw [State.upCount, List.countP_map, hsame]
      exact hcount

theorem tableInv_kept : State.KeptBy State.TableInv where
  moves h hm := hm.keeps (fun _ _ => Move.tableInv) h
  queue _ h := h
  tick := tick_tableInv
  reset _ _ := tableInv_empty rfl
  asserted h := h
  carrier _ h := h
  begun h _ := h
  byte {s} data h := by
    obtain ⟨_, _, _, he⟩ := shiftByte_eq s data
    rwa [he]
  closed h := h
  recorded _ h := h
  loaded _ h _ := h
  started _ h _ := h
  acquired _ h _ := h
  stopped _ _ := tableInv_empty rfl
  sent _ h _ _ := h
  taken _ h _ := h
  read _ _ h := h

/-- Settles O10: the table goes through the moves. -/
theorem stepKeepsTable : Obligations.StepKeepsTable := fun s t h hs => tableInv_kept.step_holds s t h hs

end Sys2Proof.Machine


/-! The settings record (R162): its fields read, defaulted and brought into the range of the table, one place at a
time, and the form READ SETTINGS returns loaded back. -/

namespace Sys2Proof.Machine

/-! ## Reading the fields -/

theorem readFields_getElem? (fs : List FieldSpec) (k mask : Nat) (bs : List Byte) (i : Nat) (f : FieldSpec)
    (h : fs[i]? = some f) : (readFields fs k mask bs)[i]? =
      some (if mask.testBit (k + i) then
        some (natLE ((bs.drop ((fs.take i).map FieldSpec.width).sum).take f.width)) else none) := by
  induction fs generalizing k bs i with
  | nil => simp at h
  | cons g gs ih =>
    cases i with
    | zero =>
      obtain rfl : g = f := by simpa using h
      simp [readFields]
    | succ i =>
      rw [readFields, List.getElem?_cons_succ, ih (k + 1) _ i (by simpa using h)]
      simp [Nat.add_assoc, Nat.add_comm 1 i]

theorem readFields_length (fs : List FieldSpec) (k mask : Nat) (bs : List Byte) :
    (readFields fs k mask bs).length = fs.length := by
  induction fs generalizing k bs with
  | nil => rfl
  | cons f fs ih => simp [readFields, ih]

theorem settingsTaken_getElem? {args : List Byte} {i : Nat} {f : FieldSpec} {o : Option Nat}
    (h : fieldSpecs[i]? = some f) (ho : (settingsGiven args)[i]? = some o) :
    (settingsTaken args)[i]? = some (o.getD f.dflt) := by
  rw [settingsTaken, List.getElem?_zipWith, h, ho]

theorem settingsTaken_length (args : List Byte) : (settingsTaken args).length = 41 := by
  simp [settingsTaken, settingsGiven, readFields_length]
  rfl

/-! ## Bringing them into range -/

theorem bringAll_prefix (fs : List FieldSpec) (vs held : List Nat) : held <+: bringAll fs vs held := by
  induction fs generalizing vs held with
  | nil => exact List.prefix_rfl
  | cons f fs ih =>
    cases vs with
    | nil => exact List.prefix_rfl
    | cons v vs => exact (List.prefix_append held _).trans (ih vs _)

theorem bringAll_length (fs : List FieldSpec) (vs held : List Nat) (h : vs.length = fs.length) :
    (bringAll fs vs held).length = held.length + fs.length := by
  induction fs generalizing vs held with
  | nil => rfl
  | cons f fs ih =>
    obtain ⟨v, vs, rfl⟩ := List.exists_cons_of_length_eq_add_one h
    rw [bringAll, ih _ _ (by simpa using h)]
    simp
    omega

/-- Each value is brought into range against the values held before it. -/
theorem bringAll_getElem? (fs : List FieldSpec) (vs held : List Nat) (i : Nat) (f : FieldSpec) (v : Nat)
    (hf : fs[i]? = some f) (hv : vs[i]? = some v) : (bringAll fs vs held)[held.length + i]? =
      some (bringField ((bringAll fs vs held).take (held.length + i)) f v) := by
  induction fs generalizing vs held i with
  | nil => simp at hf
  | cons g gs ih =>
    cases vs with
    | nil => simp at hv
    | cons w ws =>
      rw [bringAll]
      cases i with
      | zero =>
        obtain rfl : g = f := by simpa using hf
        obtain rfl : w = v := by simpa using hv
        obtain ⟨rest, hrest⟩ := bringAll_prefix gs ws (held ++ [bringField held g w])
        rw [← hrest]
        simp
      | succ i =>
        have := ih ws (held ++ [bringField held g w]) i (by simpa using hf) (by simpa using hv)
        simpa [Nat.add_assoc, Nat.add_comm 1 i] using this

/-- What field `i` is held as, with the values held before it: H below T_in, S_hi above S_lo, the others clamped. -/
def heldAs (held : List Nat) (i : Nat) (f : FieldSpec) (v : Nat) : Nat :=
  if i = 8 then min v (held.getD 7 0 - 1)
  else if i = 5 then max (held.getD 4 0 + 1) (max f.low (min v f.high))
  else max f.low (min v f.high)

theorem getElem?_fieldSpecs_lt {i : Nat} {f : FieldSpec} (h : fieldSpecs[i]? = some f) : i < 41 :=
  (List.getElem?_eq_some_iff.mp h).1

theorem bringAll_fieldSpecs {vs : List Nat} (hlen : vs.length = 41) {i : Nat} {f : FieldSpec} {v : Nat}
    (hf : fieldSpecs[i]? = some f) (hv : vs[i]? = some v) :
    (bringAll fieldSpecs vs [])[i]? = some (heldAs (bringAll fieldSpecs vs []) i f v) := by
  have hi := getElem?_fieldSpecs_lt hf
  have hout : (bringAll fieldSpecs vs []).length = 41 := bringAll_length fieldSpecs vs [] hlen
  have hget := bringAll_getElem? fieldSpecs vs [] i f v hf hv
  rw [List.length_nil, Nat.zero_add] at hget
  generalize bringAll fieldSpecs vs [] = held at hget hout ⊢
  have htake : (held.take i).length = i := by simp; omega
  rw [hget, bringField, heldAs, htake]
  refine congrArg some ?_
  by_cases h8 : i = 8
  · subst h8
    simp [clampTo, List.getD_eq_getElem?_getD]
  · by_cases h5 : i = 5
    · subst h5
      simp [clampTo, List.getD_eq_getElem?_getD]
    · rw [if_neg h8, if_neg h5, if_neg h8, if_neg h5, clampTo]

theorem settingsHeld_getElem? {args : List Byte} {i : Nat} {f : FieldSpec} {v : Nat} (hf : fieldSpecs[i]? = some f)
    (hv : (settingsTaken args)[i]? = some v) : (settingsHeld args)[i]? = some (heldAs (settingsHeld args) i f v) :=
  bringAll_fieldSpecs (settingsTaken_length args) hf hv

/-! ## The ranges of the values held -/

theorem fieldSpecs_low_le_high : ∀ f ∈ fieldSpecs, f.low ≤ f.high := by decide

/-- Values brought into the ranges of the table (R162). -/
structure InTable (held : List Nat) : Prop where
  len   : held.length = 41
  range : ∀ i f, fieldSpecs[i]? = some f → i ≠ 8 → f.low ≤ held.getD i 0 ∧ held.getD i 0 ≤ f.high
  hyst  : held.getD 8 0 ≤ held.getD 7 0 - 1
  sHi   : held.getD 4 0 < held.getD 5 0

theorem exists_getElem? {α : Type} {l : List α} {i : Nat} (h : i < l.length) : ∃ v, l[i]? = some v :=
  ⟨_, List.getElem?_eq_getElem h⟩

theorem getD_of_getElem? {l : List Nat} {i v : Nat} (h : l[i]? = some v) : l.getD i 0 = v := by
  rw [List.getD_eq_getElem?_getD, h, Option.getD_some]

theorem inTable_bringAll {vs : List Nat} (hlen : vs.length = 41) : InTable (bringAll fieldSpecs vs []) := by
  have hout : (bringAll fieldSpecs vs []).length = 41 := bringAll_length fieldSpecs vs [] hlen
  have hval (i : Nat) (f : FieldSpec) (hf : fieldSpecs[i]? = some f) :
      ∃ v, (bringAll fieldSpecs vs []).getD i 0 = heldAs (bringAll fieldSpecs vs []) i f v := by
    obtain ⟨v, hv⟩ := exists_getElem? (l := vs) (hlen ▸ getElem?_fieldSpecs_lt hf)
    exact ⟨v, getD_of_getElem? (bringAll_fieldSpecs hlen hf hv)⟩
  generalize bringAll fieldSpecs vs [] = held at hval hout
  have hplain (i : Nat) (f : FieldSpec) (hf : fieldSpecs[i]? = some f) (h8 : i ≠ 8) (h5 : i ≠ 5) :
      f.low ≤ held.getD i 0 ∧ held.getD i 0 ≤ f.high := by
    obtain ⟨v, hv⟩ := hval i f hf
    rw [hv, heldAs, if_neg h8, if_neg h5]
    have := fieldSpecs_low_le_high f (List.mem_of_getElem? hf)
    omega
  refine ⟨hout, fun i f hf h8 => ?_, ?_, ?_⟩
  · by_cases h5 : i = 5
    · subst h5
      obtain ⟨v, hv⟩ := hval 5 f hf
      have h4 := hplain 4 ⟨1, 1, 63, 4⟩ rfl (by decide) (by decide)
      obtain rfl : (⟨1, 2, 64, 20⟩ : FieldSpec) = f := Option.some.inj hf
      rw [hv, heldAs]
      dsimp only at h4 ⊢
      simp only [Nat.reduceEqDiff, if_true, if_false]
      omega
    · exact hplain i f hf h8 h5
  · obtain ⟨v, hv⟩ := hval 8 ⟨1, 0, 119, 8⟩ rfl
    rw [hv, heldAs, if_pos rfl]
    exact min_le_right _ _
  · obtain ⟨v, hv⟩ := hval 5 ⟨1, 2, 64, 20⟩ rfl
    rw [hv, heldAs]
    simp only [Nat.reduceEqDiff, if_true, if_false]
    omega

theorem inTable_settingsHeld (args : List Byte) : InTable (settingsHeld args) :=
  inTable_bringAll (settingsTaken_length args)

/-- What lies in the ranges is not moved. -/
theorem InTable.bringAll_eq {held : List Nat} (h : InTable held) : bringAll fieldSpecs held [] = held := by
  have hval (i : Nat) (f : FieldSpec) (hf : fieldSpecs[i]? = some f) :
      (bringAll fieldSpecs held []).getD i 0 = heldAs (bringAll fieldSpecs held []) i f (held.getD i 0) := by
    obtain ⟨v, hv⟩ := exists_getElem? (l := held) (h.len ▸ getElem?_fieldSpecs_lt hf)
    rw [getD_of_getElem? hv]
    exact getD_of_getElem? (bringAll_fieldSpecs h.len hf hv)
  have hlen := bringAll_length fieldSpecs held [] h.len
  have hplain (i : Nat) (f : FieldSpec) (hf : fieldSpecs[i]? = some f) (h8 : i ≠ 8) (h5 : i ≠ 5) :
      (bringAll fieldSpecs held []).getD i 0 = held.getD i 0 := by
    have := h.range i f hf h8
    rw [hval i f hf, heldAs, if_neg h8, if_neg h5]
    omega
  refine List.ext_getElem (hlen.trans h.len.symm) fun i hi hi' => ?_
  obtain ⟨f, hf⟩ := exists_getElem? (l := fieldSpecs) (i := i) (hi'.trans_eq h.len)
  have hgoal : (bringAll fieldSpecs held []).getD i 0 = held.getD i 0 := by
    by_cases h8 : i = 8
    · subst h8
      have := h.hyst
      rw [hval 8 f hf, heldAs, if_pos rfl, hplain 7 _ rfl (by decide) (by decide)]
      omega
    · by_cases h5 : i = 5
      · subst h5
        have := h.sHi
        have := h.range 5 f hf h8
        rw [hval 5 f hf, heldAs, if_neg h8, if_pos rfl, hplain 4 _ rfl (by decide) (by decide)]
        omega
      · exact hplain i f hf h8 h5
  rwa [List.getD_eq_getElem _ _ hi, List.getD_eq_getElem _ _ hi'] at hgoal

/-! ## The record of the values and its form -/

theorem isYes_flagByte (b : Bool) : isYes (flagByte b).toNat = b := by cases b <;> rfl

theorem addrOf_toNat (a : Addr) : addrOf a.toNat = a := BitVec.eq_of_toNat_eq (Nat.mod_eq_of_lt a.isLt)

theorem ofValues_values (c : Settings) : Settings.ofValues c.values = c := by
  simp [Settings.ofValues, Settings.values, isYes_flagByte, addrOf_toNat]

theorem eq_map_getD {l : List Nat} {n : Nat} (h : l.length = n) : l = (List.range n).map fun i => l.getD i 0 := by
  refine List.ext_getElem (by simp [h]) fun i hi _ => ?_
  rw [List.getElem_map, List.getElem_range, List.getD_eq_getElem _ _ hi]

theorem flagByte_isYes {n : Nat} (h : n ≤ 1) : (flagByte (isYes n)).toNat = n := by
  obtain rfl | rfl : n = 0 ∨ n = 1 := by omega
  all_goals rfl

theorem InTable.values_ofValues {held : List Nat} (h : InTable held) : (Settings.ofValues held).values = held := by
  have haddr : (addrOf (held.getD 0 0)).toNat = held.getD 0 0 := by
    have := (h.range 0 ⟨2, 1, 0xFFD, 0⟩ rfl (by decide)).2
    exact Nat.mod_eq_of_lt (show held.getD 0 0 < 4096 by dsimp only at this; omega)
  have hgateway := flagByte_isYes (h.range 1 ⟨1, 0, 1, 0⟩ rfl (by decide)).2
  have hreflect := flagByte_isYes (h.range 39 ⟨1, 0, 1, 1⟩ rfl (by decide)).2
  rw [eq_map_getD h.len, ← eq_map_getD h.len, Settings.values, Settings.ofValues]
  dsimp only
  rw [haddr, hgateway, hreflect]
  exact (eq_map_getD h.len).symm

theorem natLE_leField {w n : Nat} (hw : w = 1 ∨ w = 2) (hn : n < 256 ^ w) :
    natLE (leField w n) = n ∧ (leField w n).length = w := by
  rcases hw with rfl | rfl
  · simp [leField, natLE, byteOf] at hn ⊢
    exact hn
  · simp [leField, le16, natLE, byteOf] at hn ⊢
    omega

theorem readFields_form (fs : List FieldSpec) (vs : List Nat) (k mask : Nat) (hlen : vs.length = fs.length)
    (hmask : ∀ i < fs.length, mask.testBit (k + i) = true)
    (hfit : ∀ p ∈ fs.zip vs, (p.1.width = 1 ∨ p.1.width = 2) ∧ p.2 < 256 ^ p.1.width) :
    readFields fs k mask (List.zipWith (fun f v => leField f.width v) fs vs).flatten = vs.map some := by
  induction fs generalizing vs k with
  | nil => rw [List.length_eq_zero_iff.mp hlen]; rfl
  | cons f fs ih =>
    obtain ⟨v, vs, rfl⟩ := List.exists_cons_of_length_eq_add_one hlen
    obtain ⟨hw, hv⟩ := hfit (f, v) (by simp)
    obtain ⟨hval, hwidth⟩ := natLE_leField hw hv
    have htail := ih vs (k + 1) (by simpa using hlen) (fun i hi => by
      have := hmask (i + 1) (by simpa using hi)
      rwa [show k + (i + 1) = k + 1 + i by omega] at this) fun p hp => hfit p (by simp [hp])
    rw [List.zipWith_cons_cons, List.flatten_cons, readFields, ← Nat.add_zero k, hmask 0 (by simp), if_pos rfl,
      List.take_left' hwidth, List.drop_left' hwidth, hval, Nat.add_zero, htail]
    rfl

theorem fieldSpecs_width : ∀ f ∈ fieldSpecs, (f.width = 1 ∨ f.width = 2) ∧ f.high < 256 ^ f.width := by decide

theorem InTable.settingsGiven_form {held : List Nat} (h : InTable held) :
    settingsGiven (Settings.ofValues held).form = held.map some := by
  have hmask : natLE [0xFF, 0xFF, 0xFF, 0xFF, 0xFF, 0x01] = 2 ^ 41 - 1 := rfl
  rw [settingsGiven, Settings.form, h.values_ofValues, List.take_left' (by rfl), List.drop_left' (by rfl), hmask]
  refine readFields_form fieldSpecs held 0 _ h.len (fun i hi => ?_) fun p hp => ?_
  · rw [Nat.testBit_two_pow_sub_one]
    exact decide_eq_true (by rw [Nat.zero_add]; exact hi)
  · obtain ⟨i, hi, hp⟩ := List.mem_iff_getElem.mp hp
    rw [List.getElem_zip] at hp
    subst hp
    obtain ⟨hs, hi'⟩ : i < fieldSpecs.length ∧ i < held.length := by simpa using hi
    have hf : fieldSpecs[i]? = some fieldSpecs[i] := List.getElem?_eq_getElem hs
    obtain ⟨hw, hhigh⟩ := fieldSpecs_width _ (List.mem_of_getElem? hf)
    refine ⟨hw, ?_⟩
    rw [← List.getD_eq_getElem held 0 hi']
    by_cases h8 : i = 8
    · subst h8
      have hhyst := h.hyst
      have htin := (h.range 7 ⟨1, 4, 120, 24⟩ rfl (by decide)).2
      show held.getD 8 0 < 256
      dsimp only at htin
      omega
    · exact (h.range i _ hf h8).2.trans_lt hhigh

theorem InTable.settingsTaken_form {held : List Nat} (h : InTable held) :
    settingsTaken (Settings.ofValues held).form = held := by
  rw [settingsTaken, h.settingsGiven_form, List.zipWith_map_right]
  refine List.ext_getElem (by simp [h.len]; rfl) fun i hi hi' => by simp

theorem identityOk_iff (o : Option Nat) (low high : Nat) :
    identityOk o low high = true ↔ ∃ n, o = some n ∧ low ≤ n ∧ n ≤ high := by
  cases o <;> simp [identityOk]

theorem settingsGiven_getElem? (args : List Byte) {i : Nat} {f : FieldSpec} (hf : fieldSpecs[i]? = some f) :
    (settingsGiven args)[i]? = some (if (natLE (args.take 6)).testBit i then
      some (natLE ((args.drop (6 + ((fieldSpecs.take i).map FieldSpec.width).sum)).take f.width)) else none) := by
  rw [settingsGiven, readFields_getElem? fieldSpecs 0 _ _ i f hf, List.drop_drop, Nat.zero_add]

theorem settingsAcceptable_iff (args : List Byte) : settingsAcceptable args = true ↔
    (∃ a, (settingsGiven args)[0]? = some (some a) ∧ 1 ≤ a ∧ a ≤ 0xFFD) ∧
      ∃ ch, (settingsGiven args)[2]? = some (some ch) ∧ ch ≤ 11 := by
  have hlen : (settingsGiven args).length = 41 := readFields_length _ _ _ _
  obtain ⟨x, hx⟩ := exists_getElem? (l := settingsGiven args) (i := 0) (by omega)
  obtain ⟨y, hy⟩ := exists_getElem? (l := settingsGiven args) (i := 2) (by omega)
  simp [settingsAcceptable, identityOk_iff, List.getD_eq_getElem?_getD, hx, hy]

theorem InTable.settingsAcceptable_form {held : List Nat} (h : InTable held) :
    settingsAcceptable (Settings.ofValues held).form = true := by
  rw [settingsAcceptable_iff, h.settingsGiven_form]
  have hget (i : Nat) (hi : i < 41) : (held.map some)[i]? = some (some (held.getD i 0)) := by
    rw [List.getElem?_map, List.getElem?_eq_getElem (h.len ▸ hi), List.getD_eq_getElem _ _ (h.len ▸ hi)]
    rfl
  exact ⟨⟨_, hget 0 (by decide), h.range 0 ⟨2, 1, 0xFFD, 0⟩ rfl (by decide)⟩,
    ⟨_, hget 2 (by decide), (h.range 2 ⟨1, 0, 11, 0⟩ rfl (by decide)).2⟩⟩

/-- Settles O15: each field by its place, the form read back by the widths. -/
theorem settingsAreHeldInRangeAndLoadBack : Obligations.SettingsAreHeldInRangeAndLoadBack := by
  refine ⟨fun args i f hf => ?_, fun args _ => ?_, by decide, fun args => ⟨fun i f hf => ?_,
    settingsAcceptable_iff args⟩, fun c => ⟨ofValues_values c, ?_⟩, rfl, fun b bs => rfl⟩
  · have h := inTable_settingsHeld args
    have hi : i < (settingsHeld args).length := h.len ▸ getElem?_fieldSpecs_lt hf
    refine ⟨(settingsHeld args).getD i 0, ?_, h.range i f hf, fun h8 => ?_, fun h5 => ?_⟩
    · rw [List.getElem?_eq_getElem hi, List.getD_eq_getElem _ _ hi]
    · subst h8
      exact h.hyst
    · subst h5
      exact h.sHi
  · have h := inTable_settingsHeld args
    refine ⟨h.settingsAcceptable_form, ?_, h.settingsTaken_form⟩
    rw [settingsHeld, h.settingsTaken_form, h.bringAll_eq]
  · have hgiven := settingsGiven_getElem? args hf
    have htaken := settingsTaken_getElem? hf hgiven
    have hheld := settingsHeld_getElem? hf htaken
    refine ⟨hgiven, htaken, fun h5 h8 => ?_, fun h5 => ?_, fun h8 => ?_⟩
    · rw [hheld, heldAs, if_neg h8, if_neg h5]
    · rw [hheld, heldAs, if_neg (by omega), if_pos h5]
    · rw [hheld, heldAs, if_pos h8]
  · cases hg : c.gateway <;> cases hr : c.reflect <;> simp [Settings.values, hg, hr, flagByte]

end Sys2Proof.Machine


/-! The measured range (R65) and the route (R104 to R115), kept by every move and every other change of a command. -/

namespace Sys2Proof.Machine

/-! ## The records after 1 µs -/

theorem tick_rec? (s : State) (i : Nat) :
    s.tick.rec? i = if s.rx.state = .off then s.rec? i else (s.rec? i).map Record.silenced := by
  unfold State.tick State.rec?
  split
  · rfl
  · dsimp only
    rw [List.getElem?_map]
    cases s.slots[i]? <;> rfl

theorem silenced_alike (r : Record) : r.Alike r.silenced := ⟨rfl, id⟩

/-- A record of a later moment is one of before, with its silence grown or not. -/
theorem tick_rec?_alike {s : State} {i : Nat} {r : Record} (h : s.tick.rec? i = some r) :
    ∃ q, s.rec? i = some q ∧ q.Alike r := by
  rw [tick_rec?] at h
  split at h
  · exact ⟨r, h, rfl, id⟩
  · obtain ⟨q, hq, rfl⟩ := Option.map_eq_some_iff.mp h
    exact ⟨q, hq, silenced_alike q⟩

theorem tick_rec?_of_some {s : State} {i : Nat} {r : Record} (h : s.rec? i = some r) :
    ∃ q, s.tick.rec? i = some q ∧ r.Alike q := by
  rw [tick_rec?, h]
  split
  · exact ⟨r, rfl, rfl, id⟩
  · exact ⟨r.silenced, rfl, silenced_alike r⟩

/-! ## The measured range -/

theorem InTable.filterOk {held : List Nat} (h : InTable held) : (Settings.ofValues held).filterOk := by
  have hslow := h.range 3 ⟨1, 1, 255, 32⟩ rfl (by decide)
  have hbase := h.range 6 ⟨1, 1, 64, 4⟩ rfl (by decide)
  exact ⟨hslow.1, hslow.2, h.sHi, hbase.1, hbase.2⟩

theorem defaults_filterOk : Settings.defaults.filterOk := by
  unfold Settings.filterOk
  decide +kernel

theorem rec?_setSlot_eq_some {s : State} {i j : Nat} {o : Option Record} {q : Record} (hi : i < s.slots.length)
    (h : (s.setSlot i o).rec? j = some q) : (j = i ∧ o = some q) ∨ (j ≠ i ∧ s.rec? j = some q) := by
  rw [rec?_setSlot s i j o hi] at h
  split at h
  · exact .inl ⟨‹_›, h⟩
  · exact .inr ⟨‹_›, h⟩

theorem reselect_settings (s : State) : s.reselect.settings = s.settings := by
  obtain ⟨_, _, _, _, _, _, _, he, -⟩ := reselect_eq s
  rw [he]

theorem cfg_of_settings {a b : State} (h : b.settings = a.settings) : b.cfg = a.cfg := by
  rw [State.cfg, h]
  rfl

theorem reselect_cfg (s : State) : s.reselect.cfg = s.cfg := cfg_of_settings (reselect_settings s)

theorem rec?_of_empty {s : State} (h : s.slots = emptySlots) (i : Nat) : s.rec? i = none := by
  cases hr : s.rec? i with
  | none => rfl
  | some r =>
    have hmem := (mem_slots_iff s r).mpr ⟨i, hr⟩
    rw [h, emptySlots] at hmem
    exact absurd (List.eq_of_mem_replicate hmem) (Option.some_ne_none r)

/-- No move writes the settings or the station state. -/
theorem Move.station {air : Prop} {a b : State} (hm : State.Move air a b) :
    b.settings = a.settings ∧ b.station = a.station := by
  have hre (u : State) : u.reselect.settings = u.settings ∧ u.reselect.station = u.station := by
    obtain ⟨_, _, _, _, _, _, _, he, -⟩ := reselect_eq u
    rw [he]
    exact ⟨rfl, rfl⟩
  cases hm with
  | report addr slot body =>
    obtain ⟨_, _, _, _, he⟩ := putReport_eq a addr slot body
    rw [he]
    exact ⟨rfl, rfl⟩
  | reseated | removed => exact hre _
  | _ => exact ⟨rfl, rfl⟩

theorem State.Moves.station {air : Prop} {s t : State} (h : State.Moves air s t) :
    t.settings = s.settings ∧ t.station = s.station :=
  h.keeps (P := fun u => u.settings = s.settings ∧ u.station = s.station)
    (fun _ _ hm hs => ⟨(Move.station hm).1.trans hs.1, (Move.station hm).2.trans hs.2⟩) ⟨rfl, rfl⟩

theorem stopAll_settings (s : State) : s.stopAll.settings = s.settings :=
  ((drainReports_moves (air := False) s s.fwd).trans (endCheck_moves _ .stationStopped)).station.1

theorem reselect_rec? (s : State) (i : Nat) : s.reselect.rec? i = s.rec? i := by
  rw [State.rec?, reselect_slots]
  rfl

theorem measureInv_congr {a b : State} (h : a.MeasureInv) (hcfg : b.cfg = a.cfg) (hrec : ∀ i, b.rec? i = a.rec? i) :
    b.MeasureInv := by
  simpa only [State.MeasureInv, hcfg, hrec] using h

theorem measureInv_setSlot {s : State} {i : Nat} {o : Option Record} (h : s.MeasureInv) (hi : i < s.slots.length)
    (ho : ∀ r, o = some r → r.inRange) : (s.setSlot i o).MeasureInv := by
  refine ⟨h.1, fun j q hq => ?_⟩
  rcases rec?_setSlot_eq_some hi hq with ⟨-, hq⟩ | ⟨-, hq⟩
  · exact ho q hq
  · exact h.2 j q hq

theorem measureInv_reselect {s : State} (h : s.MeasureInv) : s.reselect.MeasureInv :=
  measureInv_congr h (reselect_cfg s) (reselect_rec? s)

theorem Move.measureInv {air : Prop} {a b : State} (hm : State.Move air a b) (h : a.MeasureInv) : b.MeasureInv := by
  have hown {i : Nat} {r r' : Record} (hr : a.rec? i = some r) (hf : r.Follows a i r') :
      (a.setSlot i (some r')).MeasureInv := by
    refine measureInv_setSlot h (rec?_lt _ hr) ?_
    rintro _ ⟨⟩
    exact hf.range h.1 (h.2 i r hr)
  cases hm with
  | report addr slot body =>
    obtain ⟨_, _, _, _, he⟩ := putReport_eq a addr slot body
    rw [he]
    exact h
  | edited i r r' hr hf hsame => exact hown hr hf
  | reseated i r r' hr hf => exact measureInv_reselect (hown hr hf)
  | removed i r hr =>
    exact measureInv_reselect (measureInv_setSlot h (rec?_lt _ hr) fun _ ho => by cases ho)
  | admitted i r hair hempty hi hnew hlink hrange =>
    refine measureInv_setSlot h hi ?_
    rintro _ ⟨⟩
    exact hrange
  | _ => exact h

theorem measureInv_kept : State.KeptBy State.MeasureInv where
  moves h hm := hm.keeps (fun _ _ => Move.measureInv) h
  queue _ h := h
  tick h := by
    refine ⟨h.1, fun i r hr => ?_⟩
    obtain ⟨q, hq, halike⟩ := tick_rec?_alike hr
    exact halike.inRange (h.2 i q hq)
  reset _ _ := ⟨defaults_filterOk, fun i r hr => by
    rw [rec?_of_empty rfl] at hr
    cases hr⟩
  asserted h := h
  carrier _ h := h
  begun h _ := h
  byte {s} data h := by
    obtain ⟨_, _, _, he⟩ := shiftByte_eq s data
    rwa [he]
  closed h := h
  recorded _ h := h
  loaded args h _ := ⟨(inTable_settingsHeld args).filterOk, h.2⟩
  started _ h _ := h
  acquired _ h _ := h
  stopped {s} h _ := by
    refine ⟨(cfg_of_settings (stopAll_settings s)).symm ▸ h.1, fun i r hr => ?_⟩
    rw [rec?_of_empty rfl] at hr
    cases hr
  sent _ h _ _ := h
  taken _ h _ := h
  read _ _ h := h

/-- Settles O11: the measured range goes through the moves; the settings loaded are in the ranges of the table. -/
theorem stepKeepsMeasurementsInRange : Obligations.StepKeepsMeasurementsInRange :=
  fun s t h hs => measureInv_kept.step_holds s t h hs

end Sys2Proof.Machine


/-! The route (R104 to R115): the next hop and the advertised cost with the records, kept by every move and every other
change of a command. -/

namespace Sys2Proof.Machine

/-! ## Reselection makes the hop consistent -/

/-- What a reselection chooses is an eligible record of the table, at a station that is no gateway. -/
theorem selectHop_some {s : State} {i : Nat} {r : Record} (h : s.selectHop = some (i, r)) :
    s.cfg.gateway = false ∧ s.rec? i = some r ∧ r.eligible = true := by
  have hbest : s.bestChoice = some (i, r) → s.rec? i = some r ∧ r.eligible = true := fun hb => by
    have := bestChoice_isBestOf s
    rw [hb] at this
    exact ⟨(rec?_eq_some_iff s i r).mpr this.1, this.2.1⟩
  have hcur : s.currentHop = some (i, r) → s.rec? i = some r ∧ r.eligible = true := fun hc => by
    unfold State.currentHop at hc
    split at hc
    · cases hc
    · split at hc
      · split at hc
        · rename_i hr helig
          obtain ⟨rfl, rfl⟩ : _ ∧ _ := by simpa using hc
          exact ⟨hr, (Bool.and_eq_true_iff.mp helig).1⟩
        · cases hc
      · cases hc
  unfold State.selectHop at h
  split at h
  · cases h
  · refine ⟨Bool.eq_false_iff.mpr ‹_›, ?_⟩
    split at h
    · exact hbest h
    · exact hcur (by rw [← h]; assumption)
    · split at h
      · exact hcur (by rw [← h]; assumption)
      · split at h
        · exact hbest (by rw [← h]; assumption)
        · exact hcur (by rw [← h]; assumption)

theorem reselect_hopConsistent (s : State) : s.reselect.hopConsistent := by
  have hroute := reselect_route s
  have hhop : s.reselect.nextHop = hopOf s.selectHop := congrArg Prod.fst hroute
  have hcost : s.reselect.advCost = s.costThrough s.selectHop := congrArg Prod.snd hroute
  rw [State.hopConsistent, hhop, hcost]
  cases hs : s.selectHop with
  | none =>
    show s.costThrough none = if s.reselect.cfg.gateway then 0 else 4095
    rw [reselect_cfg]
    rfl
  | some c =>
    obtain ⟨i, r⟩ := c
    obtain ⟨hg, hr, he⟩ := selectHop_some hs
    refine ⟨(reselect_cfg s).symm ▸ hg, r, (reselect_rec? s i).trans hr, rfl, he, ?_⟩
    rw [State.costThrough, hg]
    rfl

/-! ## The other parts of the invariant -/

/-- The route's invariant but for the next hop: the records, the return paths, and the parts empty while the station
does not operate. -/
def State.Routed (s : State) : Prop :=
  (∀ i r, s.rec? i = some r → r.consistent s.cfg) ∧ (∀ p ∈ s.paths, ∃ r, s.rec? p.via = some r ∧ r.link = .up) ∧
    (s.operating = false → s.rx.state = .off ∧ ∀ i, s.rec? i = none) ∧ (s.station = .unconfigured → s.settings = none)

theorem hopConsistent_congr {a b : State} (h : a.hopConsistent) (hhop : b.nextHop = a.nextHop)
    (hcost : b.advCost = a.advCost) (hset : b.settings = a.settings) (hslots : b.slots = a.slots) : b.hopConsistent := by
  have hrec (i : Nat) : b.rec? i = a.rec? i := by rw [State.rec?, hslots, State.rec?]
  simpa only [State.hopConsistent, hhop, hcost, cfg_of_settings hset, hrec] using h

theorem routed_congr {a b : State} (h : a.Routed) (hset : b.settings = a.settings) (hslots : b.slots = a.slots)
    (hstation : b.station = a.station) (hpaths : ∀ p ∈ b.paths, p ∈ a.paths)
    (hrx : a.operating = false → a.rx.state = .off → b.rx.state = .off) : b.Routed := by
  have hrec (i : Nat) : b.rec? i = a.rec? i := by rw [State.rec?, hslots, State.rec?]
  have hoper : b.operating = a.operating := by rw [State.operating, hstation, State.operating]
  obtain ⟨hcons, hvia, hidle, hnone⟩ := h
  refine ⟨fun i r hr => ?_, fun p hp => ?_, fun ho => ?_, fun hu => ?_⟩
  · rw [cfg_of_settings hset]
    exact hcons i r ((hrec i).symm.trans hr)
  · rw [hrec]
    exact hvia p (hpaths p hp)
  · rw [hoper] at ho
    exact ⟨hrx ho (hidle ho).1, fun i => (hrec i).trans ((hidle ho).2 i)⟩
  · exact hset.trans (hnone (hstation.symm.trans hu))

theorem routed_reselect {s : State} (h : s.Routed) : s.reselect.Routed := by
  obtain ⟨_, _, _, _, _, _, _, he, -⟩ := reselect_eq s
  rw [he]
  exact routed_congr h rfl rfl rfl (fun _ => id) fun _ => id

theorem Routed.operating_of_rec {s : State} (h : s.Routed) {i : Nat} {r : Record} (hr : s.rec? i = some r) :
    s.operating = true := by
  cases ho : s.operating with
  | true => rfl
  | false =>
    have hnone := (h.2.2.1 ho).2 i
    rw [hr] at hnone
    cases hnone

/-- A slot written while the station operates, consistent, and with no return path left through it unless it is UP. -/
theorem routed_setSlot {s : State} {i : Nat} {o : Option Record} (h : s.Routed) (ho : s.operating = true)
    (hi : i < s.slots.length) (hcons : ∀ r, o = some r → r.consistent s.cfg)
    (hvia : (∃ r, o = some r ∧ r.link = .up) ∨ ∀ p ∈ s.paths, p.via ≠ i) : (s.setSlot i o).Routed := by
  refine ⟨fun j q hq => ?_, fun p hp => ?_, fun hidle => ?_, h.2.2.2⟩
  · rcases rec?_setSlot_eq_some hi hq with ⟨-, hq⟩ | ⟨-, hq⟩
    · exact hcons q hq
    · exact h.1 j q hq
  · rw [rec?_setSlot s i p.via o hi]
    split
    · rcases hvia with hup | hnone
      · exact hup
      · exact absurd ‹p.via = i› (hnone p hp)
    · exact h.2.1 p hp
  · exact absurd (ho.symm.trans hidle) (by decide)

theorem routed_own {s : State} {i : Nat} {r r' : Record} (h : s.Routed) (hr : s.rec? i = some r)
    (hf : r.Follows s i r') : (s.setSlot i (some r')).Routed := by
  refine routed_setSlot h (Routed.operating_of_rec h hr) (rec?_lt _ hr) ?_ ?_
  · rintro _ ⟨⟩
    exact hf.derived (h.1 i r hr)
  · by_cases hany : ∃ p ∈ s.paths, p.via = i
    · obtain ⟨p, hp, hpi⟩ := hany
      obtain ⟨q, hq, hup⟩ := h.2.1 p hp
      rw [hpi, hr] at hq
      cases hq
      rcases hf.paths (h.1 i r hr) hup with hup' | hnone
      · exact .inl ⟨r', rfl, hup'⟩
      · exact .inr hnone
    · exact .inr fun p hp hpi => hany ⟨p, hp, hpi⟩

/-- A record that the Path Selector does not notice leaves the next hop consistent. -/
theorem hopConsistent_edited {s : State} {i : Nat} {r r' : Record} (h : s.hopConsistent) (hr : s.rec? i = some r)
    (hcons : r.consistent s.cfg) (hpeer : r'.peer = r.peer) (hsame : r.SameRoute s.cfg r') :
    (s.setSlot i (some r')).hopConsistent := by
  obtain ⟨hcost, helig⟩ := hsame hcons
  unfold State.hopConsistent at h ⊢
  show match s.nextHop with
    | none => s.advCost = if s.cfg.gateway then 0 else 4095
    | some hop => s.cfg.gateway = false ∧ ∃ q, (s.setSlot i (some r')).rec? hop.slot = some q ∧ q.peer = hop.addr ∧
        q.eligible = true ∧ s.advCost = q.pathCost
  cases hn : s.nextHop with
  | none => rwa [hn] at h
  | some hop =>
    rw [hn] at h
    obtain ⟨hg, q, hq, hqpeer, hqelig, hqcost⟩ := h
    refine ⟨hg, ?_⟩
    by_cases hslot : hop.slot = i
    · rw [hslot, hr] at hq
      cases hq
      exact ⟨r', by rw [rec?_setSlot s i _ _ (rec?_lt _ hr), if_pos hslot], hpeer.trans hqpeer, helig.trans hqelig,
        hqcost.trans hcost.symm⟩
    · exact ⟨q, by rw [rec?_setSlot s i _ _ (rec?_lt _ hr), if_neg hslot, hq], hqpeer, hqelig, hqcost⟩

theorem hopConsistent_admitted {s : State} {i : Nat} {o : Option Record} (h : s.hopConsistent) (hempty : s.rec? i = none)
    (hi : i < s.slots.length) : (s.setSlot i o).hopConsistent := by
  unfold State.hopConsistent at h ⊢
  show match s.nextHop with
    | none => s.advCost = if s.cfg.gateway then 0 else 4095
    | some hop => s.cfg.gateway = false ∧ ∃ q, (s.setSlot i o).rec? hop.slot = some q ∧ q.peer = hop.addr ∧
        q.eligible = true ∧ s.advCost = q.pathCost
  cases hn : s.nextHop with
  | none => rwa [hn] at h
  | some hop =>
    rw [hn] at h
    obtain ⟨hg, q, hq, hrest⟩ := h
    refine ⟨hg, q, ?_, hrest⟩
    rw [rec?_setSlot s i _ _ hi, if_neg ?_, hq]
    intro hslot
    rw [hslot, hempty] at hq
    cases hq

theorem mem_learnPath {origin : Addr} {via now : Nat} {l : List ReturnPath} {p : ReturnPath}
    (h : p ∈ learnPath origin via now l) : p ∈ l ∨ p.via = via := by
  unfold learnPath at h
  dsimp only at h
  split at h
  · obtain ⟨q, hq, rfl⟩ := List.mem_map.mp h
    split
    · exact .inr rfl
    · exact .inl hq
  · split at h
    · rcases List.mem_append.mp h with hp | hp
      · exact .inl hp
      · exact .inr (by rw [List.mem_singleton.mp hp])
    · split at h
      · rcases List.mem_append.mp h with hp | hp
        · exact .inl (List.mem_of_mem_erase hp)
        · exact .inr (by rw [List.mem_singleton.mp hp])
      · exact .inr (by rw [List.mem_singleton.mp h])

/-! ## The moves -/

/-- A frame is at work only while the station operates. -/
theorem Move.routeInv {air : Prop} {a b : State} (hm : State.Move air a b) (hair : air → a.operating = true)
    (h : a.RouteInv) : b.RouteInv := by
  obtain ⟨hhop, hrest⟩ : a.hopConsistent ∧ a.Routed := h
  have hsame (u : State)
      (hu : u = { a with
        paths := u.paths, rx := u.rx, draws := u.draws, serial := u.serial, workAvailable := u.workAvailable,
        attnLow := u.attnLow, tx := u.tx, duty := u.duty, check := u.check, free := u.free, fwd := u.fwd,
        ring := u.ring, seen := u.seen }) (hpaths : ∀ p ∈ u.paths, p ∈ a.paths)
      (hrx : a.operating = false → a.rx.state = .off → u.rx.state = .off) : u.RouteInv := by
    have hset : u.settings = a.settings := by rw [hu]
    have hslots : u.slots = a.slots := by rw [hu]
    exact ⟨hopConsistent_congr hhop (by rw [hu]) (by rw [hu]) hset hslots,
      routed_congr hrest hset hslots (by rw [hu]) hpaths hrx⟩
  cases hm with
  | report addr slot body =>
    obtain ⟨_, _, _, _, he⟩ := putReport_eq a addr slot body
    rw [he]
    exact ⟨hopConsistent_congr hhop rfl rfl rfl rfl, routed_congr hrest rfl rfl rfl (fun _ => id) fun _ => id⟩
  | receiver rx free hrx =>
    refine hsame _ rfl (fun _ => id) fun ho hoff => ?_
    rcases hrx with hrx | hrx | hrx | hrx
    · exact hrx
    · exact hrx.trans hoff
    · exact absurd (hrx.symm.trans ho) (by decide)
    · exact absurd ((hair hrx).symm.trans ho) (by decide)
  | pathsGo paths hsub => exact hsame _ rfl (fun _ hp => hsub.subset hp) fun _ => id
  | learned i r origin now hr hup =>
    refine ⟨hopConsistent_congr hhop rfl rfl rfl rfl, hrest.1, fun p hp => ?_, hrest.2.2⟩
    rcases mem_learnPath hp with hp | hp
    · exact hrest.2.1 p hp
    · exact ⟨r, by rw [hp]; exact hr, hup⟩
  | edited i r r' hr hf hsameRoute =>
    exact ⟨hopConsistent_edited hhop hr (hrest.1 i r hr) hf.peer hsameRoute, routed_own hrest hr hf⟩
  | reseated i r r' hr hf => exact ⟨reselect_hopConsistent _, routed_reselect (routed_own hrest hr hf)⟩
  | removed i r hr hpaths =>
    refine ⟨reselect_hopConsistent _, routed_reselect (routed_setSlot hrest (Routed.operating_of_rec hrest hr)
      (rec?_lt _ hr) (fun _ ho => by cases ho) (.inr fun p hp hpi => ?_))⟩
    obtain ⟨q, hq, hup⟩ := hrest.2.1 p hp
    rw [hpi, hr] at hq
    cases hq
    exact hpaths hup p hp hpi
  | admitted i r hair' hempty hi hnew hlink hrange hderived =>
    refine ⟨hopConsistent_admitted hhop hempty hi, routed_setSlot hrest (hair hair') hi ?_ (.inr fun p hp hpi => ?_)⟩
    · rintro _ ⟨⟩
      exact hderived
    · obtain ⟨q, hq, -⟩ := hrest.2.1 p hp
      rw [hpi, hempty] at hq
      cases hq
  | _ => exact hsame _ rfl (fun _ => id) fun _ => id

theorem State.Moves.routeInv {s t : State} (h : s.RouteInv) (hm : State.Moves (s.rx.state ≠ .off) s t) : t.RouteInv := by
  have hair : s.rx.state ≠ .off → s.operating = true := fun hon => by
    by_contra hidle
    exact hon (h.2.2.2.1 (Bool.eq_false_iff.mpr hidle)).1
  refine (hm.keeps (P := fun u => u.RouteInv ∧ u.operating = s.operating) (fun a b hab ha => ⟨?_, ?_⟩) ⟨h, rfl⟩).1
  · exact Move.routeInv hab (fun ho => ha.2.trans (hair ho)) ha.1
  · rw [State.operating, (Move.station hab).2]
    exact ha.2

/-! ## Every command -/

theorem not_operating_of_unconfigured {s : State} (h : s.station = .unconfigured) : s.operating = false := by
  rw [State.operating, h]
  rfl

/-- A station with no record, no path and no next hop. -/
theorem routeInv_idle {s : State} (hslots : s.slots = emptySlots) (hpaths : s.paths = []) (hhop : s.nextHop = none)
    (hcost : s.advCost = if s.cfg.gateway then 0 else 4095) (hrx : s.rx.state = .off)
    (hset : s.station = .unconfigured → s.settings = none) : s.RouteInv := by
  refine ⟨?_, fun i r hr => ?_, fun p hp => ?_, fun _ => ⟨hrx, rec?_of_empty hslots⟩, hset⟩
  · rw [State.hopConsistent, hhop]
    exact hcost
  · rw [rec?_of_empty hslots] at hr
    cases hr
  · rw [hpaths] at hp
    cases hp

theorem tick_routeInv {s : State} (h : s.RouteInv) : s.tick.RouteInv := by
  obtain ⟨hhop, hcons, hvia, hidle, hnone⟩ := h
  refine ⟨?_, fun i r hr => ?_, fun p hp => ?_, fun ho => ⟨(hidle ho).1, fun i => ?_⟩, hnone⟩
  · unfold State.hopConsistent at hhop ⊢
    show match s.nextHop with
      | none => s.advCost = if s.cfg.gateway then 0 else 4095
      | some hop => s.cfg.gateway = false ∧ ∃ q, s.tick.rec? hop.slot = some q ∧ q.peer = hop.addr ∧
          q.eligible = true ∧ s.advCost = q.pathCost
    cases hn : s.nextHop with
    | none => rwa [hn] at hhop
    | some hop =>
      rw [hn] at hhop
      obtain ⟨hg, r, hr, hpeer, helig, hcost⟩ := hhop
      obtain ⟨q, hq, halike⟩ := tick_rec?_of_some hr
      exact ⟨hg, q, hq, (halike.part Record.peer fun _ => rfl).trans hpeer,
        (halike.part Record.eligible fun _ => rfl).trans helig,
        hcost.trans (halike.part Record.pathCost fun _ => rfl).symm⟩
  · obtain ⟨q, hq, halike⟩ := tick_rec?_alike hr
    exact halike.consistent (hcons i q hq)
  · obtain ⟨r, hr, hup⟩ := hvia p hp
    obtain ⟨q, hq, halike⟩ := tick_rec?_of_some hr
    exact ⟨q, hq, halike.link.trans hup⟩
  · rw [tick_rec?, (hidle ho).2 i]
    split <;> rfl

/-- Settings are loaded while nothing is in the table, with the advertised cost at its reset value. -/
theorem loaded_routeInv {s : State} (c : Settings) (h : s.RouteInv) (hst : s.station = .unconfigured) :
    State.RouteInv { s with settings := some c, station := .ready,
                            advCost := if c.gateway then 0 else s.advCost } := by
  obtain ⟨hhop, hcons, hvia, hidle, hnone⟩ := h
  obtain ⟨hoff, hempty⟩ := hidle (not_operating_of_unconfigured hst)
  refine ⟨?_, fun i r hr => ?_, fun p hp => ?_, fun _ => ⟨hoff, hempty⟩, fun hu => by cases hu⟩
  · unfold State.hopConsistent at hhop ⊢
    cases hn : s.nextHop with
    | none =>
      rw [hn, show s.cfg = Settings.defaults by rw [State.cfg, hnone hst]; rfl] at hhop
      show (if c.gateway then 0 else s.advCost) = if c.gateway then 0 else 4095
      rw [hhop]
      rfl
    | some hop =>
      rw [hn] at hhop
      obtain ⟨-, r, hr, -⟩ := hhop
      rw [hempty] at hr
      cases hr
  · cases (hempty i).symm.trans hr
  · obtain ⟨r, hr, -⟩ := hvia p hp
    cases (hempty p.via).symm.trans hr

theorem routeInv_kept : State.KeptBy State.RouteInv where
  moves h hm := hm.routeInv h
  queue _ h := h
  tick := tick_routeInv
  reset _ _ := routeInv_idle rfl rfl rfl rfl rfl fun _ => rfl
  asserted h := ⟨h.1, h.2.1, h.2.2.1, fun ho => ⟨rfl, (h.2.2.2.1 ho).2⟩, h.2.2.2.2⟩
  carrier _ h := h
  begun h _ := h
  byte {s} data h := by
    obtain ⟨_, _, _, he⟩ := shiftByte_eq s data
    rwa [he]
  closed h := h
  recorded _ h := h
  loaded _ h hst := loaded_routeInv _ h hst
  started _ h _ := ⟨h.1, h.2.1, h.2.2.1, (fun ho => by cases ho), fun hu => by cases hu⟩
  acquired _ h _ := ⟨h.1, h.2.1, h.2.2.1, (fun ho => by cases ho), fun hu => by cases hu⟩
  stopped {s} _ _ := by
    refine routeInv_idle rfl rfl rfl ?_ rfl fun hu => by cases hu
    rw [cfg_of_settings (stopAll_settings s)]
    rfl
  sent _ h _ _ := h
  taken _ h _ := h
  read _ _ h := h

/-- Settles O12: the route goes through the moves, of which a reselection makes the next hop good again. -/
theorem stepKeepsRouteConsistent : Obligations.StepKeepsRouteConsistent :=
  fun s t h hs => routeInv_kept.step_holds s t h hs

end Sys2Proof.Machine


/-! What an event of the air or of a timer leaves alone: the host's part of the state, and the books of the buffers
(R119). -/

namespace Sys2Proof.Machine

/-! ## The receiver through what a heard frame does -/

section
variable (s : State)

@[simp] theorem noteWork_rx : s.noteWork.rx = s.rx := rfl

@[simp] theorem drawBelow_rx (n : Nat) : (s.drawBelow n).2.rx = s.rx := rfl

@[simp] theorem modRec_rx (i : Nat) (f : Record → Record) : (s.modRec i f).rx = s.rx := by
  unfold State.modRec
  (repeat' split) <;> simp

@[simp] theorem putReport_rx (a : Addr) (slot : Option Nat) (body : ReportBody) :
    (s.putReport a slot body).rx = s.rx := by
  unfold State.putReport
  (repeat' split) <;> simp

@[simp] theorem reselect_rx : (s.reselect).rx = s.rx := by
  unfold State.reselect
  (repeat' split) <;> simp

@[simp] theorem recost_rx (i : Nat) : (s.recost i).rx = s.rx := by
  unfold State.recost
  (repeat' split) <;> simp

@[simp] theorem rerate_rx (i : Nat) : (s.rerate i).rx = s.rx := by
  unfold State.rerate
  simp

@[simp] theorem assessTrim_rx (i : Nat) : (s.assessTrim i).rx = s.rx := by
  unfold State.assessTrim
  simp

@[simp] theorem endTrim_rx (i : Nat) (o : TrimOutcome) : (s.endTrim i o).rx = s.rx := by
  unfold State.endTrim
  (repeat' split) <;> simp

@[simp] theorem takeEcho_rx (i e : Nat) : (s.takeEcho i e).rx = s.rx := by
  unfold State.takeEcho
  dsimp only
  (repeat' split) <;> simp

@[simp] theorem announceFade_rx (i : Nat) (was : Fade) : (s.announceFade i was).rx = s.rx := by
  unfold State.announceFade
  (repeat' split) <;> simp

@[simp] theorem fadeReport_rx (i : Nat) (r : Record) (k : FadeClass) (c : FadeCause) (d p : Nat) :
    (s.fadeReport i r k c d p).rx = s.rx := by
  unfold State.fadeReport
  simp

@[simp] theorem measure_rx (i m : Nat) (seed : Bool) : (s.measure i m seed).rx = s.rx := by
  unfold State.measure
  dsimp only
  (repeat' split) <;> simp

@[simp] theorem endCheck_rx (c : CheckCause) : (s.endCheck c).rx = s.rx := by
  unfold State.endCheck
  (repeat' split) <;> simp

@[simp] theorem endCheckOn_rx (i : Nat) : (s.endCheckOn i).rx = s.rx := by
  unfold State.endCheckOn
  (repeat' split) <;> simp

@[simp] theorem withdrawReflect_rx (p : Addr) : (s.withdrawReflect p).rx = s.rx := by
  unfold State.withdrawReflect
  (repeat' split) <;> simp

@[simp] theorem removePathsVia_rx (i : Nat) : (s.removePathsVia i).rx = s.rx := by
  unfold State.removePathsVia
  simp

@[simp] theorem announceLoss_rx (i : Nat) (p : Addr) : (s.announceLoss i p).rx = s.rx := by
  unfold State.announceLoss
  simp

@[simp] theorem removeRecord_rx (i : Nat) (c : LinkCause) : (s.removeRecord i c).rx = s.rx := by
  unfold State.removeRecord
  (repeat' split) <;> simp

@[simp] theorem makeRoom_rx : (s.makeRoom.1).rx = s.rx := by
  unfold State.makeRoom
  (repeat' split) <;> simp

@[simp] theorem admitPeer_rx (p : Addr) (m : Nat) (a : Advert) : ((s.admitPeer p m a).1).rx = s.rx := by
  have h := makeRoom_rx s
  unfold State.admitPeer
  split <;> simp_all

@[simp] theorem refresh_rx (i : Nat) : ((s.refresh i).1).rx = s.rx := by
  unfold State.refresh
  (repeat' split) <;> simp

@[simp] theorem dutyReport_rx (a b : DutyMode) (w : Bool) : (s.dutyReport a b w).rx = s.rx := by
  unfold State.dutyReport
  simp

@[simp] theorem activity_rx : (s.activity).rx = s.rx := by
  unfold State.activity
  (repeat' split) <;> simp

@[simp] theorem hear_rx (f : RxFrame) (a : Option Advert) : ((s.hear f a).1).rx = s.rx := by
  unfold State.hear
  (repeat' split) <;> simp

@[simp] theorem observe_rx (f : RxFrame) (a : Option Advert) (e : Option Nat) : ((s.observe f a e).1).rx = s.rx := by
  have h := hear_rx s f a
  unfold State.observe
  split
  · simp_all
  · dsimp only
    split <;> simp_all
end

/-! ## The host's part and the books of the buffers -/

/-- Between two states the host's part stays, but for the carrier line, and no buffer changes its holder unseen. -/
structure State.Quiet (s t : State) : Prop where
  host  : t.host = { s.host with carrier := t.carrier }
  books : s.rxSound = true → t.buffers = s.buffers ∧ t.rxSound = true

section
variable {s t u : State}

theorem host_eq_self_carrier (h : t.host = s.host) : t.host = { s.host with carrier := t.carrier } := by
  have hc : t.carrier = s.carrier := congrArg HostPart.carrier h
  rw [h, hc]
  rfl

theorem State.Quiet.of (hhost : t.host = s.host) (hbuf : t.buffers = s.buffers)
    (hrx : s.rxSound = true → t.rxSound = true) : s.Quiet t :=
  ⟨host_eq_self_carrier hhost, fun h => ⟨hbuf, hrx h⟩⟩

theorem State.Quiet.refl (s : State) : s.Quiet s := .of rfl rfl id

theorem State.Quiet.trans (h1 : s.Quiet t) (h2 : t.Quiet u) : s.Quiet u where
  host := by rw [h2.host, h1.host]
  books h := by
    obtain ⟨hbuf, hrx⟩ := h1.books h
    obtain ⟨hbuf', hrx'⟩ := h2.books hrx
    exact ⟨hbuf'.trans hbuf, hrx'⟩

theorem State.Quiet.ite {p : Prop} [Decidable p] (h1 : p → s.Quiet t) (h2 : ¬p → s.Quiet u) :
    s.Quiet (if p then t else u) := by
  split
  · exact h1 ‹_›
  · exact h2 ‹_›

theorem State.Quiet.finish (h : s.Quiet t) : s.Quiet t.finish :=
  h.trans (.of (finish_host t) (finish_buffers t) (finish_rxSound t))

theorem State.Quiet.finishLinks (h : s.Quiet t) : s.Quiet t.finishLinks :=
  h.trans (.of (finishLinks_host t) (finishLinks_buffers t) (finishLinks_rxSound t))

/-- The carrier line is the world's. -/
theorem State.Quiet.carrier (h : s.Quiet t) (c : Bool) : s.Quiet { t with carrier := c } where
  host := congrArg (fun p : HostPart => { p with carrier := c }) h.host
  books := h.books

theorem dropFrame_quiet (s : State) : s.Quiet s.dropFrame := .of rfl rfl fun _ => rfl

end

/-! ## A kept frame's end -/

theorem rxSound_of_frame {s : State} (h : s.rx.frame = none) : s.rxSound = true := by
  rw [State.rxSound, Receiver.sound, h]

theorem dataBody_buffers (s : State) (f : RxFrame) (slot : Option Nat) (body : List Byte)
    (h : f.store = true → s.rx.holds = true) : (s.dataBody f slot body).buffers = s.buffers := by
  unfold State.dataBody
  split
  · split
    · rename_i i
      have htaken := takeData_buffers s i body (h ‹_›)
      split
      · split <;> simp_all
      · rfl
    · rfl
  · exact askAck_buffers s _ _

theorem handBody_buffers (s : State) (f : RxFrame) (slot : Option Nat) (body : List Byte)
    (h : f.store = true → s.rx.holds = true) : (s.handBody f slot body).buffers = s.buffers := by
  have hdata := dataBody_buffers s f slot body h
  unfold State.handBody
  (repeat' split) <;> simp [hdata]

theorem keptFrameEnds_buffers (s : State) (f : RxFrame) (body : List Byte)
    (h : f.store = true → s.rx.holds = true) : (s.keptFrameEnds f body).buffers = s.buffers := by
  have hseen := observe_buffers s f (admitsWith f body) (f.echoCarried s.cfg.address body)
  have hrx := observe_rx s f (admitsWith f body) (f.echoCarried s.cfg.address body)
  unfold State.keptFrameEnds
  dsimp only
  split
  · rw [handBody_buffers _ _ _ _ (by rwa [activity_rx, hrx]), activity_buffers, hseen]
  · rw [handBody_buffers _ _ _ _ (by rwa [hrx]), hseen]

/-- A kept body is handed on from the buffer the receiver holds (R9, R13). -/
theorem keptFrameEnds_quiet {s : State} {f : RxFrame} (body : List Byte) (hf : s.rx.frame = some f) :
    s.Quiet (s.dropFrame.keptFrameEnds f body) where
  host := host_eq_self_carrier (keptFrameEnds_host s.dropFrame f body)
  books h := by
    refine ⟨keptFrameEnds_buffers s.dropFrame f body fun hstore => ?_,
      rxSound_of_frame (keptFrameEnds_frame s.dropFrame f body)⟩
    rw [State.rxSound, Receiver.sound, hf] at h
    have hheld : (!f.store || s.rx.holds) = true := h
    rwa [hstore] at hheld

end Sys2Proof.Machine


/-! The events of the air and of the timers, row by row: each leaves the host's part and the books of the buffers
alone, but for ACQUISITION_EXPIRY, which moves the station state. -/

namespace Sys2Proof.Machine

/-- A meaning that leaves the host's part and the books alone. -/
def Quietly (f : State → Host.Outcome State Fault Refusal) : Prop := ∀ s t : State, f s = .next t → s.Quiet t

section
variable {s : State}

theorem quietly_unlessReset {g : State → State} (hg : ∀ s : State, s.Quiet (g s)) : Quietly (State.unlessReset g) := by
  intro s t h
  cases h
  split
  · exact .refl s
  · exact hg s

/-! ## The receiver -/

theorem mediumBusyChange_quietly (c : Bool) : Quietly (execMediumBusyChange c) := by
  intro s t h
  cases h
  have hcarrier : s.Quiet { s with carrier := c } := (State.Quiet.refl s).carrier c
  exact .ite (fun _ => hcarrier) fun _ => .ite (fun _ => .refl s) fun _ => hcarrier.finish

theorem syncWordFound_quietly : Quietly execSyncWordFound :=
  quietly_unlessReset fun s => .ite (fun _ => .finish (.of rfl rfl id)) fun _ => .refl s

theorem fallen_quiet (s : State) : s.Quiet (State.finish { s.dropFrame with carrier := false }) :=
  ((dropFrame_quiet s).carrier false).finish

theorem headerReceived_quietly (header : List Byte) (raw : Int) : Quietly (execHeaderReceived header raw) := by
  refine quietly_unlessReset fun s => .ite (fun _ => ?_) fun _ => .refl s
  split
  · exact (dropFrame_quiet s).finish
  · rename_i h _
    exact .finish (.of (acceptHeader_host s h raw) (acceptHeader_buffers s h raw) (acceptHeader_rxSound s h raw))

theorem frameEnd_quietly (body : List Byte) : Quietly (execFrameEnd body) := by
  refine quietly_unlessReset fun s => ?_
  split
  · rename_i f _ hf
    exact .ite (fun _ => (keptFrameEnds_quiet body hf).finishLinks) fun _ => .refl s
  · exact .refl s

theorem discardEnd_quietly : Quietly execDiscardEnd := by
  refine quietly_unlessReset fun s => ?_
  split
  · refine .ite (fun _ => .finishLinks (.ite (fun _ => dropFrame_quiet s) fun _ => ?_)) fun _ => .refl s
    exact (dropFrame_quiet s).trans (.of (observe_host _ _ _ _) (observe_buffers _ _ _ _) (observe_rxSound _ _ _ _))
  · exact .refl s

/-! ## The sender -/

theorem State.Quiet.countDown {t : State} (h : s.Quiet t) (n : Nat) : s.Quiet (t.countDown n) :=
  h.trans (.of (countDown_host t n) (countDown_buffers t n) (countDown_rxSound t n))

theorem guardGap_quietly : Quietly execGuardGapComplete := by
  refine quietly_unlessReset fun s => .ite (fun _ => .finish (.countDown ?_ _)) fun _ => .refl s
  exact .of rfl rfl id

theorem transmissionEnd_quietly : Quietly execTransmissionEnd := by
  refine quietly_unlessReset fun s => ?_
  split
  · exact .ite (fun _ => .finish (.of (sent_host s _) (sent_buffers s _) (sent_rxSound s _))) fun _ => .refl s
  · exact .refl s

theorem shortGap_quietly : Quietly execShortGapExpiry := by
  refine quietly_unlessReset fun s => ?_
  split
  · exact .ite (fun _ => .finish (.of rfl rfl fun _ => rfl)) fun _ => .refl s
  · exact .refl s

theorem ackTransmissionEnd_quietly : Quietly execAckTransmissionEnd := by
  refine quietly_unlessReset fun s => ?_
  split
  · exact .ite (fun _ => .finish (.of rfl rfl id)) fun _ => .refl s
  · exact .refl s

theorem ackWait_quietly : Quietly execAckWaitExpiry :=
  quietly_unlessReset fun s => .ite (fun _ => .finishLinks
    (.of (settleAttempt_host s _) (settleAttempt_buffers s _) (settleAttempt_rxSound s _))) fun _ => .refl s

/-! ## The records' timers -/

/-- An event on the record of a slot, that acts where a condition on the record holds. -/
theorem quietly_onRecord {slot : Nat} {p : State → Record → Prop} [∀ s r, Decidable (p s r)]
    {g : State → Record → State} (hg : ∀ (s : State) (r : Record), s.Quiet (g s r)) :
    Quietly (State.unlessReset fun s => match s.rec? slot with
      | some r => if p s r then g s r else s
      | none => s) := by
  refine quietly_unlessReset fun s => ?_
  split
  · exact .ite (fun _ => hg s _) fun _ => .refl s
  · exact .refl s

theorem removeRecord_quiet (s : State) (i : Nat) (c : LinkCause) : s.Quiet (s.removeRecord i c) :=
  .of (removeRecord_host s i c) (removeRecord_buffers s i c) (removeRecord_rxSound s i c)

theorem initiationWait_quiet (s : State) (slot : Nat) (r : Record) : s.Quiet
    (if s.candidate r then s.openOn slot else s.setSlot slot (some { r with initWait := none })).finishLinks :=
  .finishLinks (.ite (fun _ => .of (openOn_host s slot) (openOn_buffers s slot) (openOn_rxSound s slot))
    fun _ => .of rfl rfl id)

theorem exchangeTimeout_quietly (slot : Nat) : Quietly (execExchangeTimeout slot) := by
  refine quietly_unlessReset fun s => ?_
  split
  · exact .ite (fun _ => .finishLinks
      (.of (failExchange_host s slot) (failExchange_buffers s slot) (failExchange_rxSound s slot))) fun _ => .refl s
  · exact .refl s

theorem shadowBegins_quiet (s : State) (slot : Nat) (r : Record) : s.Quiet (s.shadowBegins slot r) :=
  .of (shadowBegins_host s slot r) (shadowBegins_buffers s slot r) (shadowBegins_rxSound s slot r)

theorem rebuildBaseline_quiet (s : State) (slot : Nat) (c : FadeCause) (d : Nat) :
    s.Quiet (s.rebuildBaseline slot c d) :=
  .of (rebuildBaseline_host s slot c d) (rebuildBaseline_buffers s slot c d) (rebuildBaseline_rxSound s slot c d)

theorem settleExpiry_quietly (slot : Nat) : Quietly (execSettleExpiry slot) := by
  refine quietly_unlessReset fun s => ?_
  split
  · split
    · exact .ite (fun _ => .finish (.trans (.ite (fun _ => shadowBegins_quiet s slot _) fun _ => .refl s)
        (rebuildBaseline_quiet _ slot _ _))) fun _ => .refl s
    · exact .refl s
  · exact .refl s

theorem trimHoldoff_quiet (s : State) (slot : Nat) (r : Record) :
    s.Quiet (((s.setSlot slot (some r)).assessTrim slot).rerate slot).finish :=
  .finish (.of (by simp) (by simp) fun h => by simp [h])

/-! ## The station's timers -/

theorem waitTest_quiet (s : State) (e : Entry) : s.Quiet (s.waitTest e) :=
  .of (waitTest_host s e) (waitTest_buffers s e) (waitTest_rxSound s e)

theorem waitLimit_quietly (k : Nat) : Quietly (execWaitLimitExpiry k) := by
  refine quietly_unlessReset fun s => ?_
  split
  · exact .ite (fun _ => (waitTest_quiet s _).finish) fun _ => .refl s
  · exact .refl s

theorem routeAge_quietly (dest : Addr) : Quietly (execRouteAgeExpiry dest) :=
  quietly_unlessReset fun s => .ite (fun _ => .finish (.of rfl rfl id)) fun _ => .refl s

theorem State.Quiet.dutyReport {t : State} (h : s.Quiet t) (new old : DutyMode) (w : Bool) :
    s.Quiet (t.dutyReport new old w) :=
  h.trans (.of (dutyReport_host t new old w) (dutyReport_buffers t new old w) (dutyReport_rxSound t new old w))

theorem stepDown_quietly : Quietly execStepDownExpiry := by
  refine quietly_unlessReset fun s => .ite (fun _ => .finish (.dutyReport ?_ _ _ _)) fun _ => .refl s
  exact .of rfl rfl id

theorem beaconFallsDue_quiet (s : State) (d : Nat) : s.Quiet (s.beaconFallsDue d) := .of rfl rfl id

theorem beaconDue_quietly : Quietly execBeaconDue := by
  refine quietly_unlessReset fun s => ?_
  split
  · exact .ite (fun _ => (beaconFallsDue_quiet s _).finish) fun _ => .refl s
  · exact .refl s

theorem listenPeriodEnd_quietly : Quietly execListenPeriodEnd :=
  quietly_unlessReset fun s => .ite (fun _ => .finish (.of rfl rfl id)) fun _ => .refl s

theorem readyProbe_quiet (s : State) : s.Quiet s.readyProbe :=
  .of (readyProbe_host s) (readyProbe_buffers s) (readyProbe_rxSound s)

theorem checkPace_quietly : Quietly execCheckPaceExpiry := by
  refine quietly_unlessReset fun s => ?_
  split
  · exact .ite (fun _ => (readyProbe_quiet s).finish) fun _ => .refl s
  · exact .refl s

theorem reflectTimeout_quietly : Quietly execReflectTimeout := by
  refine quietly_unlessReset fun s => ?_
  split
  · exact .ite (fun _ => .finish
      (.of (probeSettled_host s _) (probeSettled_buffers s _) (probeSettled_rxSound s _))) fun _ => .refl s
  · exact .refl s

end

/-! ## All of them -/

/-- The rows of the air, of the records and of the station's timers, but for ACQUISITION_EXPIRY. -/
def isQuiet : Instr → Bool
  | .mediumBusyChange _ | .syncWordFound | .headerAbandoned | .headerReceived _ _ | .frameEnd _ | .frameTruncated
  | .discardEnd | .guardGapComplete | .backoffSlotEnd | .transmissionEnd | .shortGapExpiry | .ackTransmissionEnd
  | .ackWaitExpiry | .silenceLimitReached _ | .aged _ | .initiationWaitExpiry _ | .exchangeTimeout _
  | .offerHoldoffExpiry _ | .briefExpiry _ | .settleExpiry _ | .settleTimeout _ | .trimHoldoffExpiry _
  | .peerWindowEnd _ | .waitLimitExpiry _ | .routeAgeExpiry _ | .stepDownExpiry | .beaconDue | .listenPeriodEnd
  | .checkPaceExpiry | .reflectTimeout => true
  | _ => false

theorem exec_quietly (c : Instr) (hc : isQuiet c = true) : Quietly (exec c) := by
  cases c with
  | mediumBusyChange b => exact mediumBusyChange_quietly b
  | syncWordFound => exact syncWordFound_quietly
  | headerAbandoned | frameTruncated =>
    exact quietly_unlessReset fun s => .ite (fun _ => fallen_quiet s) fun _ => .refl s
  | headerReceived header raw => exact headerReceived_quietly header raw
  | frameEnd body => exact frameEnd_quietly body
  | discardEnd => exact discardEnd_quietly
  | guardGapComplete => exact guardGap_quietly
  | backoffSlotEnd =>
    exact quietly_unlessReset fun s => .ite (fun _ => (State.Quiet.countDown (.refl s) _).finish) fun _ => .refl s
  | transmissionEnd => exact transmissionEnd_quietly
  | shortGapExpiry => exact shortGap_quietly
  | ackTransmissionEnd => exact ackTransmissionEnd_quietly
  | ackWaitExpiry => exact ackWait_quietly
  | silenceLimitReached slot =>
    exact quietly_onRecord fun s _ =>
      .finishLinks (.of (loseLink_host s slot _) (loseLink_buffers s slot _) (loseLink_rxSound s slot _))
  | aged slot => exact quietly_onRecord fun s _ => (removeRecord_quiet s slot _).finishLinks
  | initiationWaitExpiry slot => exact quietly_onRecord fun s r => initiationWait_quiet s slot r
  | exchangeTimeout slot => exact exchangeTimeout_quietly slot
  | offerHoldoffExpiry slot => exact quietly_onRecord fun _ _ => .finishLinks (.of rfl rfl id)
  | briefExpiry slot =>
    exact quietly_onRecord fun s r => .finish ((shadowBegins_quiet s slot r).trans
      (.of (announceFade_host _ _ _) (announceFade_buffers _ _ _) (announceFade_rxSound _ _ _)))
  | settleExpiry slot => exact settleExpiry_quietly slot
  | settleTimeout slot =>
    exact quietly_onRecord fun s _ =>
      .finish (.of (endTrim_host s slot _) (endTrim_buffers s slot _) (endTrim_rxSound s slot _))
  | trimHoldoffExpiry slot => exact quietly_onRecord fun s r => trimHoldoff_quiet s slot _
  | peerWindowEnd slot => exact quietly_onRecord fun _ _ => .of rfl rfl id
  | waitLimitExpiry k => exact waitLimit_quietly k
  | routeAgeExpiry dest => exact routeAge_quietly dest
  | stepDownExpiry => exact stepDown_quietly
  | beaconDue => exact beaconDue_quietly
  | listenPeriodEnd => exact listenPeriodEnd_quietly
  | checkPaceExpiry => exact checkPace_quietly
  | reflectTimeout => exact reflectTimeout_quietly
  | _ => cases hc

end Sys2Proof.Machine


/-! The buffers of the pool (R119) through every command, and what only its own commands move (R161, R162, R122,
R160). -/

namespace Sys2Proof.Machine

/-! ## STOP -/

theorem recordDrop_stopped_eq (s : State) (e : Entry) :
    ∃ q o n d, s.recordDrop e .stopped = { s with reports := q, overrun := o, serial := n, discards := d } := by
  unfold State.recordDrop
  split
  · exact putReport_eq _ _ _ _
  · exact nomatch ‹DropCause.stopped = DropCause.noPath›
  · exact ⟨_, _, _, _, rfl⟩

theorem drainReports_eq (l : List Entry) (s : State) :
    ∃ q o n d, drainReports l s = { s with reports := q, overrun := o, serial := n, discards := d } := by
  induction l generalizing s with
  | nil => exact ⟨_, _, _, _, rfl⟩
  | cons e l ih =>
    obtain ⟨_, _, _, _, he⟩ := recordDrop_stopped_eq s e
    rw [drainReports, he]
    exact ih _

theorem endCheck_parts (s : State) (c : CheckCause) :
    ∃ q o n d k, s.endCheck c = { s with reports := q, overrun := o, serial := n, discards := d, check := k } := by
  unfold State.endCheck
  split
  · obtain ⟨_, _, _, _, he⟩ := putReport_eq { s with check := { s.check with state := .idle, endCause := c } } _ _ _
    exact ⟨_, _, _, _, _, he⟩
  · exact ⟨_, _, _, _, _, rfl⟩

/-- What stands of the state after STOP, the reports and the Link Checker aside. -/
theorem stopAll_eq (s : State) : ∃ q o n d k, s.stopAll =
    { s with
      reports := q, overrun := o, serial := n, discards := d, check := k, station := .ready,
      free := s.free + s.fwd.length + one s.rx.holds, rx := Receiver.stopped, tx := Sender.stopped,
      slots := emptySlots, nextHop := none, advCost := if s.cfg.gateway then 0 else 4095, fwd := [], seen := [],
      paths := [], workAvailable := false,
      duty := { s.duty with stepDown := none, nextDue := none, listen := .none, survey := 0, acquisition := none } } := by
  obtain ⟨q, o, n, d, hdrain⟩ := drainReports_eq s.fwd s
  obtain ⟨q', o', n', d', k, hend⟩ := endCheck_parts (drainReports s.fwd s) .stationStopped
  refine ⟨q', o', n', d', k, ?_⟩
  unfold State.stopAll
  dsimp only
  rw [hend, hdrain]
  rfl

/-! ## The buffers -/

theorem poolInv_quiet {s t : State} (h : s.PoolInv) (hq : s.Quiet t) : t.PoolInv := by
  obtain ⟨hbuf, hport, hrx⟩ := h
  obtain ⟨hbuf', hrx'⟩ := hq.books hrx
  have hp : t.port = s.port := congrArg HostPart.port hq.host
  exact ⟨hbuf'.trans hbuf, by rwa [State.portSound, hp], hrx'⟩

/-- The port closed on a transaction that holds no buffer. -/
theorem poolInv_closePort {s : State} (h : s.PoolInv) (hheld : s.portHolds = false) : s.closePort.PoolInv := by
  refine ⟨?_, rfl, h.2.2⟩
  have hb := h.1
  rw [State.buffers, hheld] at hb
  exact hb

theorem portHolds_of_code {s : State} {p : Transaction} (h : s.PoolInv) (hp : s.port = some p) (hcode : p.code ≠ 0x10) :
    s.portHolds = false := by
  have hsound := portSound_of_some hp h.2.1
  rw [State.portHolds, hp]
  cases hheld : p.sendHeld with
  | false => exact hheld
  | true => exact absurd (((sound_iff p).mp hsound hheld).1) hcode

theorem resetWith_poolInv (s : State) (cause : ResetCause) : (s.resetWith cause).PoolInv := ⟨rfl, rfl, rfl⟩

theorem pool_next {g : State → State} (hg : ∀ s : State, s.PoolInv → (g s).PoolInv) :
    State.KeptBy.Holds State.PoolInv (State.unlessReset g) :=
  State.KeptBy.outOfReset hg

/-- A command other than SEND: its transaction held no buffer. -/
theorem pool_command {code : Byte} {effect : Transaction → State → Status × State} (hcode : code ≠ 0x10)
    (he : ∀ (p : Transaction) (s : State), s.PoolInv → (effect p s).2.PoolInv) :
    State.KeptBy.Holds State.PoolInv (State.unlessReset (State.takeCommand code effect)) := by
  refine pool_next fun s hs => ?_
  unfold State.takeCommand
  split
  · exact hs
  · rename_i p hp
    split
    · rename_i hcomplete
      have hpcode : p.code = code := by simpa using (Bool.and_eq_true_iff.mp hcomplete).2
      exact he p _ (poolInv_closePort hs (portHolds_of_code hs hp (hpcode.trans_ne hcode)))
    · exact hs

theorem asserted_poolInv {s : State} (h : s.PoolInv) : State.PoolInv { s.closePort with
    inReset := true, attnLow := false, rx := Receiver.stopped, tx := Sender.stopped, free := s.free + s.looseBuffers } := by
  refine ⟨?_, rfl, rfl⟩
  have hb := h.1
  show s.free + (one s.rx.holds + one s.portHolds) + 0 + 0 + s.fwd.length + s.ring.length = 48
  rw [State.buffers] at hb
  omega

theorem shiftByte_poolInv {s : State} (data : Byte) (h : s.PoolInv) : (s.shiftByte data).PoolInv := by
  cases hp : s.port with
  | none => rwa [shiftByte_of_closed data hp]
  | some t =>
    obtain ⟨hb, hport, hrx⟩ := h
    obtain ⟨t', out, free, he, hsound, hcase⟩ := shiftByte_moved (portSound_of_some hp hport) data hp
    have hold : s.portHolds = t.sendHeld := by rw [State.portHolds, hp]; rfl
    rw [he]
    refine ⟨?_, hsound, hrx⟩
    show free + one s.rx.holds + one t'.sendHeld + s.fwd.length + s.ring.length = 48
    rw [State.buffers, hold] at hb
    rcases hcase with ⟨hheld, hfree⟩ | ⟨hheld, hheld', hfree, -⟩
    · rwa [hheld, hfree]
    · simp only [hheld, hheld', one_true, one_false] at hb ⊢
      omega

theorem withPort_poolInv {s : State} (h : s.PoolInv) (hp : s.port = none) : (s.withPort Transaction.fresh 0).PoolInv := by
  refine ⟨?_, rfl, h.2.2⟩
  have hb := h.1
  rw [State.buffers, State.portHolds, hp] at hb
  exact hb

theorem cutShort_poolInv {s : State} {p : Transaction} (h : s.PoolInv) (hp : s.port = some p) :
    (if p.sendHeld then s.closePort.returnBuffer else s.closePort).PoolInv := by
  have hold : s.portHolds = p.sendHeld := by rw [State.portHolds, hp]; rfl
  split
  · rename_i hheld
    refine ⟨?_, ?_, returnBuffer_rxSound _ h.2.2⟩
    · have hb := h.1
      rw [State.buffers, hold, hheld] at hb
      rw [returnBuffer_buffers]
      exact (show s.free + one s.rx.holds + 0 + s.fwd.length + s.ring.length + 1 = 48 by rw [one_true] at hb; omega)
    · have hhost : s.closePort.returnBuffer.port = none := congrArg HostPart.port (returnBuffer_host s.closePort)
      rw [State.portSound, hhost]
  · exact poolInv_closePort h (hold.trans (Bool.eq_false_iff.mpr ‹_›))

/-- The buffer of a SEND goes from the port to the forward queue. -/
theorem sent_poolInv {s : State} {p : Transaction} (h : s.PoolInv) (hp : s.port = some p) (hheld : p.sendHeld = true) :
    State.PoolInv { s.closePort with
      fwd := s.fwd ++ [sendEntry p s.closePort], serial := s.serial + 1, seqCounter := s.seqCounter + 1,
      workAvailable := true } := by
  refine ⟨?_, rfl, h.2.2⟩
  have hb := h.1
  rw [State.buffers, State.portHolds, hp] at hb
  show s.free + one s.rx.holds + 0 + (s.fwd ++ [_]).length + s.ring.length = 48
  have hone : one (holdsBuffer (some p)) = 1 := congrArg one hheld
  rw [List.length_append, List.length_singleton]
  omega

theorem stopAll_poolInv {s : State} (h : s.PoolInv) : s.stopAll.PoolInv := by
  obtain ⟨_, _, _, _, _, he⟩ := stopAll_eq s
  rw [he]
  refine ⟨?_, h.2.1, rfl⟩
  have hb := h.1
  rw [State.buffers] at hb
  show s.free + s.fwd.length + one s.rx.holds + 0 + one s.portHolds + 0 + s.ring.length = 48
  omega

/-- The buffer of the frame taken goes back to the pool or to the receiver. -/
theorem ringTaken_poolInv {s : State} {d : Delivery} {rest : List Delivery} (h : s.PoolInv) (hr : s.ring = d :: rest) :
    (State.returnBuffer { s with ring := rest }).PoolInv := by
  refine ⟨?_, ?_, returnBuffer_rxSound _ h.2.2⟩
  · have hb := h.1
    rw [State.buffers, hr, List.length_cons] at hb
    rw [returnBuffer_buffers]
    exact hb
  · have hhost : (State.returnBuffer { s with ring := rest }).port = s.port :=
      congrArg HostPart.port (returnBuffer_host _)
    rw [State.portSound, hhost]
    exact h.2.1

/-! ## The host's commands -/

section
variable {s : State} (h : s.PoolInv)
include h

theorem poolInv_finish : s.finish.PoolInv := poolInv_quiet h (State.Quiet.refl s).finish

theorem loadSettings_poolInv (p : Transaction) : (loadSettingsEffect p s).2.PoolInv := by
  unfold loadSettingsEffect
  dsimp only
  split <;> exact h

theorem start_poolInv (p : Transaction) : (startEffect p s).2.PoolInv := by
  unfold startEffect
  split
  · refine poolInv_finish ?_
    exact h
  · exact h

theorem stop_poolInv (p : Transaction) : (stopEffect p s).2.PoolInv := by
  unfold stopEffect
  split
  · exact h
  · exact h
  · exact stopAll_poolInv h
  · exact stopAll_poolInv h

theorem takeFrame_poolInv (p : Transaction) : (takeFrameEffect p s).2.PoolInv := by
  unfold takeFrameEffect
  dsimp only
  split
  · exact h
  · split
    · exact poolInv_finish (ringTaken_poolInv h ‹_›)
    · exact h

theorem reseed_poolInv (p : Transaction) : (reseedEffect p s).2.PoolInv := by
  unfold reseedEffect
  split
  · exact poolInv_quiet h (rebuildBaseline_quiet s _ _ _).finish
  · exact h

theorem forget_poolInv (p : Transaction) : (forgetEffect p s).2.PoolInv := by
  unfold forgetEffect
  split
  · exact poolInv_quiet h (removeRecord_quiet s _ _).finishLinks
  · exact h

theorem checkStart_poolInv (p : Transaction) : (checkStartEffect p s).2.PoolInv := by
  unfold checkStartEffect
  split
  · refine poolInv_finish (poolInv_quiet ?_ (readyProbe_quiet _))
    exact h
  · exact h

theorem checkStop_poolInv : (s.endCheck .stopped).finish.PoolInv :=
  poolInv_quiet h (.finish (.of (endCheck_host s _) (endCheck_buffers s _) (endCheck_rxSound s _)))

theorem checkFreeze_poolInv (p : Transaction) : (checkFreezeEffect p s).2.PoolInv := by
  unfold checkFreezeEffect
  split <;> exact h

end

theorem send_pool : State.KeptBy.Holds State.PoolInv execSend := by
  refine pool_next fun s hs => ?_
  unfold State.takeCommand
  split
  · exact hs
  · rename_i p hp
    split
    · rename_i hcomplete
      unfold sendEffect
      split
      · exact poolInv_finish (poolInv_quiet (sent_poolInv hs hp ‹_›)
          (.of (activity_host _) (activity_buffers _) (activity_rxSound _)))
      · rename_i hheld
        have hold : s.portHolds = false := by
          rw [State.portHolds, hp]
          exact Bool.eq_false_iff.mpr hheld
        have hclosed : s.closePort.PoolInv := poolInv_closePort hs hold
        exact hclosed
    · exact hs

theorem unknown_pool : State.KeptBy.Holds State.PoolInv execUnknownCommand := by
  refine pool_next fun s hs => ?_
  split
  · exact hs
  · rename_i p hp
    split
    · rename_i hcomplete
      refine poolInv_closePort hs (portHolds_of_code hs hp fun hcode => ?_)
      rw [hcode] at hcomplete
      exact absurd (Bool.and_eq_true_iff.mp hcomplete).2 (by decide)
    · exact hs

theorem exec_pool (c : Instr) : State.KeptBy.Holds State.PoolInv (exec c) := by
  cases c with
  | powerOn => exact State.KeptBy.next fun s _ => resetWith_poolInv s .power
  | resetLineAsserted => exact pool_next fun s hs => asserted_poolInv hs
  | resetLineReleased =>
    refine State.KeptBy.next fun s hs => ?_
    split
    · exact resetWith_poolInv s .pin
    · exact hs
  | reset =>
    refine pool_next fun s hs => ?_
    split
    · exact hs
    · split
      · exact resetWith_poolInv s .command
      · exact hs
  | transactionBegun =>
    refine pool_next fun s hs => ?_
    split
    · exact withPort_poolInv hs (by simpa using ‹s.port.isNone = true›)
    · exact hs
  | portByteShifted data => exact pool_next fun s hs => shiftByte_poolInv data hs
  | transactionCutShort =>
    refine pool_next fun s hs => ?_
    split
    · exact hs
    · split
      · exact hs
      · exact poolInv_finish (cutShort_poolInv hs ‹_›)
  | unknownCommand => exact unknown_pool
  | loadSettings => exact pool_command (by decide) fun p _ hs => loadSettings_poolInv hs p
  | start => exact pool_command (by decide) fun p _ hs => start_poolInv hs p
  | stop => exact pool_command (by decide) fun p _ hs => stop_poolInv hs p
  | send => exact send_pool
  | takeFrame => exact pool_command (by decide) fun p _ hs => takeFrame_poolInv hs p
  | takeReports | readSettings | readNeighbours | readStation | checkRead =>
    exact pool_command (by decide) fun _ _ hs => hs
  | reseed => exact pool_command (by decide) fun p _ hs => reseed_poolInv hs p
  | forget => exact pool_command (by decide) fun p _ hs => forget_poolInv hs p
  | checkStart => exact pool_command (by decide) fun p _ hs => checkStart_poolInv hs p
  | checkStop => exact pool_command (by decide) fun _ _ hs => checkStop_poolInv hs
  | checkFreeze => exact pool_command (by decide) fun p _ hs => checkFreeze_poolInv hs p
  | acquisitionExpiry =>
    refine pool_next fun s hs => ?_
    split
    · refine poolInv_quiet ?_ (State.Quiet.refl _).finishLinks
      exact hs
    · exact hs
  | _ => exact fun s t hs h => poolInv_quiet hs (exec_quietly _ rfl s t h)

/-- Settles O7: the quiet rows leave the books alone, and each host command moves a buffer with its holder. -/
theorem stepKeepsEveryBufferHeldOnce : Obligations.StepKeepsEveryBufferHeldOnce := by
  intro s t hs h
  unfold step at h
  split at h
  · cases h
    refine ⟨?_, hs.2⟩
    exact hs.1
  · refine exec_pool _ _ t ?_ h
    exact hs

end Sys2Proof.Machine


/-! What only its own commands move: the station state (R161), the settings (R162), the sequence counter (R122), the
latest command (R160). -/

namespace Sys2Proof.Machine

/-- What a command that completes no reset may move of the host's part. -/
structure State.HostMoves (c : Instr) (s t : State) : Prop where
  now      : t.now = s.now
  pending  : t.pending = s.pending
  settings : c ≠ .loadSettings → t.settings = s.settings
  station  : c ≠ .loadSettings → c ≠ .start → c ≠ .stop → c ≠ .acquisitionExpiry → t.station = s.station
  counter  : c ≠ .send → t.seqCounter = s.seqCounter
  inReset  : c ≠ .resetLineAsserted → t.inReset = s.inReset
  latest   : t.latest ≠ s.latest →
    ∃ p st, s.port = some p ∧ p.complete = true ∧ t.latest = some (p.code, st) ∧ t.port = none

/-- A meaning that moves of the host's part what its command may. -/
def MovesHost (c : Instr) (f : State → Host.Outcome State Fault Refusal) : Prop :=
  ∀ s t : State, f s = .next t → s.HostMoves c t

section
variable {c : Instr} {s t : State}

/-- The port, PDO and the carrier line aside, nothing of the host's part has moved. -/
theorem hostMoves_of_host {carrier : Bool} {port : Option Transaction} {pdo : Option Byte}
    (h : t.host = { s.host with carrier := carrier, port := port, pdo := pdo }) : s.HostMoves c t := by
  have hlatest : t.latest = s.latest := congrArg HostPart.latest h
  exact ⟨congrArg HostPart.now h, congrArg HostPart.pending h, fun _ => congrArg HostPart.settings h,
    fun _ _ _ _ => congrArg HostPart.station h, fun _ => congrArg HostPart.seqCounter h,
    fun _ => congrArg HostPart.inReset h, fun hne => absurd hlatest hne⟩

theorem hostMoves_refl (s : State) : s.HostMoves c s := hostMoves_of_host (port := s.port) (pdo := s.pdo) (carrier := s.carrier) rfl

theorem movesHost_unlessReset {g : State → State} (hg : ∀ s : State, s.HostMoves c (g s)) :
    MovesHost c (State.unlessReset g) := by
  intro s t h
  cases h
  split
  · exact hostMoves_refl s
  · exact hg s

/-- What an effect at the rise may move, with the port closed. -/
structure State.EffectMoves (c : Instr) (s t : State) : Prop where
  host     : ∃ c st q, t.host = { s.host with settings := c, station := st, seqCounter := q }
  settings : c ≠ .loadSettings → t.settings = s.settings
  station  : c ≠ .loadSettings → c ≠ .start → c ≠ .stop → t.station = s.station
  counter  : c ≠ .send → t.seqCounter = s.seqCounter

theorem effectMoves_of_host (h : t.host = s.host) : s.EffectMoves c t := by
  have hset : t.settings = s.settings := congrArg HostPart.settings h
  have hst : t.station = s.station := congrArg HostPart.station h
  have hseq : t.seqCounter = s.seqCounter := congrArg HostPart.seqCounter h
  exact ⟨⟨_, _, _, h⟩, fun _ => hset, fun _ _ _ => hst, fun _ => hseq⟩

theorem movesHost_command {code : Byte} {effect : Transaction → State → Status × State}
    (he : ∀ (p : Transaction) (s : State), s.EffectMoves c (effect p s).2) :
    MovesHost c (State.unlessReset (State.takeCommand code effect)) := by
  refine movesHost_unlessReset fun s => ?_
  unfold State.takeCommand
  split
  · exact hostMoves_refl s
  · rename_i p hp
    split
    · rename_i hcomplete
      obtain ⟨hdone, hcode⟩ := Bool.and_eq_true_iff.mp hcomplete
      obtain ⟨⟨_, _, _, hhost⟩, hset, hst, hseq⟩ := he p s.closePort
      exact ⟨congrArg HostPart.now hhost, congrArg HostPart.pending hhost, hset, fun h1 h2 h3 _ => hst h1 h2 h3, hseq,
        fun _ => congrArg HostPart.inReset hhost, fun _ => ⟨p, (effect p s.closePort).1, hp, hdone,
          congrArg (fun k => some (k, _)) (of_decide_eq_true hcode).symm, congrArg HostPart.port hhost⟩⟩
    · exact hostMoves_refl s

end

/-! ## The host's commands -/

theorem load_effectMoves (p : Transaction) (s : State) : s.EffectMoves .loadSettings (loadSettingsEffect p s).2 := by
  unfold loadSettingsEffect
  dsimp only
  split
  · exact ⟨⟨_, _, _, rfl⟩, fun h => absurd rfl h, fun h => absurd rfl h, fun _ => rfl⟩
  · exact effectMoves_of_host rfl

theorem start_effectMoves (p : Transaction) (s : State) : s.EffectMoves .start (startEffect p s).2 := by
  unfold startEffect
  split
  · have hhost := finish_host { s with
      station := .acquiring, duty := { s.duty with mode := .active, acquisition := some (s.now + ms 1600) } }
    exact ⟨⟨_, _, _, hhost⟩, fun _ => congrArg HostPart.settings hhost, fun _ h => absurd rfl h,
      fun _ => congrArg HostPart.seqCounter hhost⟩
  · exact effectMoves_of_host rfl

theorem stop_effectMoves (p : Transaction) (s : State) : s.EffectMoves .stop (stopEffect p s).2 := by
  have hstop : s.EffectMoves .stop s.stopAll.setAttention := by
    obtain ⟨_, _, _, _, _, he⟩ := stopAll_eq s
    rw [he]
    exact ⟨⟨_, _, _, rfl⟩, fun _ => rfl, fun _ _ h => absurd rfl h, fun _ => rfl⟩
  unfold stopEffect
  split
  · exact effectMoves_of_host rfl
  · exact effectMoves_of_host rfl
  · exact hstop
  · exact hstop

theorem send_effectMoves (p : Transaction) (s : State) : s.EffectMoves .send (sendEffect p s).2 := by
  unfold sendEffect
  split
  · have hhost := (finish_host (State.activity { s with
      fwd := s.fwd ++ [sendEntry p s], serial := s.serial + 1, seqCounter := s.seqCounter + 1,
      workAvailable := true })).trans (activity_host _)
    exact ⟨⟨_, _, _, hhost⟩, fun _ => congrArg HostPart.settings hhost,
      fun _ _ _ => congrArg HostPart.station hhost, fun h => absurd rfl h⟩
  · exact effectMoves_of_host rfl

theorem takeFrame_effectMoves (p : Transaction) (s : State) : (takeFrameEffect p s).2.host = s.host := by
  unfold takeFrameEffect
  dsimp only
  split
  · rfl
  · split
    · exact (finish_host _).trans (returnBuffer_host _)
    · rfl

theorem reseed_effectMoves (p : Transaction) (s : State) : (reseedEffect p s).2.host = s.host := by
  unfold reseedEffect
  split
  · exact (finish_host _).trans (rebuildBaseline_host _ _ _ _)
  · rfl

theorem forget_effectMoves (p : Transaction) (s : State) : (forgetEffect p s).2.host = s.host := by
  unfold forgetEffect
  split
  · exact (finishLinks_host _).trans (removeRecord_host _ _ _)
  · rfl

theorem checkStart_effectMoves (p : Transaction) (s : State) : (checkStartEffect p s).2.host = s.host := by
  unfold checkStartEffect
  split
  · exact (finish_host _).trans (readyProbe_host _)
  · rfl

theorem checkFreeze_effectMoves (p : Transaction) (s : State) : (checkFreezeEffect p s).2.host = s.host := by
  unfold checkFreezeEffect
  split <;> rfl

/-! ## Every command that completes no reset -/

theorem cutShort_movesHost : MovesHost .transactionCutShort execTransactionCutShort := by
  refine movesHost_unlessReset fun s => ?_
  split
  · exact hostMoves_refl s
  · split
    · exact hostMoves_refl s
    · have hclosed (u : State) (hu : u.host = s.closePort.host) : s.HostMoves .transactionCutShort u.finish :=
        hostMoves_of_host (port := none) (pdo := none) (carrier := s.carrier) ((finish_host u).trans hu)
      split
      · exact hclosed _ (returnBuffer_host _)
      · exact hclosed _ rfl

theorem hostMoves_station {s t : State} {st : StationState} (h : t.host = { s.host with station := st }) :
    s.HostMoves .acquisitionExpiry t := by
  have hlatest : t.latest = s.latest := congrArg HostPart.latest h
  exact ⟨congrArg HostPart.now h, congrArg HostPart.pending h, fun _ => congrArg HostPart.settings h,
    fun _ _ _ hc => absurd rfl hc, fun _ => congrArg HostPart.seqCounter h,
    fun _ => congrArg HostPart.inReset h, fun hne => absurd hlatest hne⟩

theorem acquisition_movesHost : MovesHost .acquisitionExpiry execAcquisitionExpiry := by
  refine movesHost_unlessReset fun s => ?_
  split
  · exact hostMoves_station (st := .onAir) (finishLinks_host _)
  · exact hostMoves_refl s

theorem exec_movesHost (c : Instr) (hc : completesReset c = false) : MovesHost c (exec c) := by
  cases c with
  | powerOn | resetLineReleased | reset => cases hc
  | resetLineAsserted =>
    exact movesHost_unlessReset fun s => ⟨rfl, rfl, fun _ => rfl, fun _ _ _ _ => rfl, fun _ => rfl,
      fun h => absurd rfl h, fun h => absurd rfl h⟩
  | transactionBegun =>
    refine movesHost_unlessReset fun s => ?_
    split
    · exact hostMoves_of_host (port := some Transaction.fresh) (pdo := some 0) (carrier := s.carrier) rfl
    · exact hostMoves_refl s
  | portByteShifted data =>
    refine movesHost_unlessReset fun s => ?_
    obtain ⟨p, o, _, he⟩ := shiftByte_eq s data
    rw [he]
    exact hostMoves_of_host (port := p) (pdo := o) (carrier := s.carrier) rfl
  | transactionCutShort => exact cutShort_movesHost
  | unknownCommand =>
    refine movesHost_unlessReset fun s => ?_
    split
    · exact hostMoves_refl s
    · split
      · exact hostMoves_of_host (port := none) (pdo := none) (carrier := s.carrier) rfl
      · exact hostMoves_refl s
  | loadSettings => exact movesHost_command load_effectMoves
  | start => exact movesHost_command start_effectMoves
  | stop => exact movesHost_command stop_effectMoves
  | send => exact movesHost_command send_effectMoves
  | takeFrame => exact movesHost_command fun p s => effectMoves_of_host (takeFrame_effectMoves p s)
  | takeReports | readSettings | readNeighbours | readStation | checkRead =>
    exact movesHost_command fun _ _ => effectMoves_of_host rfl
  | reseed => exact movesHost_command fun p s => effectMoves_of_host (reseed_effectMoves p s)
  | forget => exact movesHost_command fun p s => effectMoves_of_host (forget_effectMoves p s)
  | checkStart => exact movesHost_command fun p s => effectMoves_of_host (checkStart_effectMoves p s)
  | checkStop =>
    exact movesHost_command fun _ _ => effectMoves_of_host ((finish_host _).trans (endCheck_host _ _))
  | checkFreeze => exact movesHost_command fun p s => effectMoves_of_host (checkFreeze_effectMoves p s)
  | acquisitionExpiry => exact acquisition_movesHost
  | _ =>
    intro s t h
    have hhost := (exec_quietly _ rfl s t h).host
    exact hostMoves_of_host hhost

/-- Settles O13: the rows of the air and of the timers leave the host's part, and each host command says what it
moves. -/
theorem onlyTheirRowsMoveStationAndSettings : Obligations.OnlyTheirRowsMoveStationAndSettings := by
  intro c s t h hc
  obtain ⟨hnow, hpending, hset, hst, hseq, hreset, hlatest⟩ := exec_movesHost c hc s t h
  exact ⟨hnow, hpending, hset, hst, hseq, hreset, hlatest⟩

end Sys2Proof.Machine


/-! The machine as a whole: the step, the events that cannot occur, the passing of time, and the resets (R169). -/

namespace Sys2Proof.Machine

/-! ## The step -/

/-- Settles O1. -/
theorem stepTakesFrontCommand : Obligations.StepTakesFrontCommand := fun _ _ _ => rfl

/-! ## Events that cannot occur -/

theorem exec_next (c : Instr) (s : State) : ∃ t, exec c s = .next t := by
  cases c <;> exact ⟨_, rfl⟩

section
variable {s : State}

theorem unlessReset_idle {g : State → State} (h : g s = s) : s.unlessReset g = .next s := by
  rw [State.unlessReset, h, ite_self]

theorem takeCommand_idle {code : Byte} {effect : Transaction → State → Status × State}
    (h : ∀ p, s.port = some p → p.complete = true → p.code ≠ code) :
    s.unlessReset (State.takeCommand code effect) = .next s := by
  refine unlessReset_idle ?_
  unfold State.takeCommand
  split
  · rfl
  · rename_i p hp
    refine if_neg fun hc => ?_
    obtain ⟨hdone, hcode⟩ := Bool.and_eq_true_iff.mp hc
    exact h p hp hdone (of_decide_eq_true hcode)

theorem reset_idle (h : ∀ p, s.port = some p → p.complete = true → p.code ≠ 0x05) : execReset s = .next s := by
  refine unlessReset_idle ?_
  split
  · rfl
  · rename_i p hp
    refine if_neg fun hc => ?_
    obtain ⟨hdone, hcode⟩ := Bool.and_eq_true_iff.mp hc
    exact h p hp hdone (of_decide_eq_true hcode)

theorem unknown_idle (h : ∀ p, s.port = some p → p.complete = true → argCount p.code ≠ none) :
    execUnknownCommand s = .next s := by
  refine unlessReset_idle ?_
  split
  · rfl
  · rename_i p hp
    refine if_neg fun hc => ?_
    obtain ⟨hdone, hcode⟩ := Bool.and_eq_true_iff.mp hc
    exact h p hp hdone (Option.isNone_iff_eq_none.mp hcode)

theorem cutShort_idle (h : ∀ p, s.port = some p → p.complete = true) : execTransactionCutShort s = .next s := by
  refine unlessReset_idle ?_
  split
  · rfl
  · exact if_pos (h _ ‹_›)

theorem begun_idle (h : s.port ≠ none) : execTransactionBegun s = .next s :=
  unlessReset_idle (if_neg fun hn => h (Option.isNone_iff_eq_none.mp hn))

/-- A deadline that has not come. -/
theorem not_reached {d : Option Nat} {now : Nat} (h : ∀ e, d = some e → now < e) : ¬reached d now = true := by
  cases d with
  | none => exact Bool.false_ne_true
  | some e => exact fun hc => absurd (of_decide_eq_true hc) (not_le.mpr (h e rfl))

end

/-- The rows of the air in a state in which they cannot occur. -/
theorem air_idle (s : State) :
    (s.rx.state ≠ .hunt → exec .syncWordFound s = .next s) ∧
    (s.rx.state ≠ .header → exec .headerAbandoned s = .next s) ∧
    (∀ bs raw, (s.rx.state ≠ .header ∨ bs.length ≠ 10) → exec (.headerReceived bs raw) s = .next s) ∧
    (∀ body, (∀ f, s.rx.state = .body → s.rx.frame = some f → s.now < f.ends ∨ body.length ≠ f.header.len) →
      exec (.frameEnd body) s = .next s) ∧
    ((∀ f, s.rx.state = .body → s.rx.frame = some f → f.ends ≤ s.now) → exec .frameTruncated s = .next s) ∧
    ((∀ f, s.rx.state = .discard → s.rx.frame = some f → s.now < f.ends) → exec .discardEnd s = .next s) ∧
    (s.inReset = false → (s.rx.state = .header ∨ ∃ f, s.rx.state = .body ∧ s.rx.frame = some f ∧ s.now < f.ends) →
      exec (.mediumBusyChange false) s = .next s) := by
  refine ⟨fun h => unlessReset_idle (if_neg h), fun h => unlessReset_idle (if_neg h), fun bs raw h => ?_,
    fun body h => ?_, fun h => ?_, fun h => ?_, fun hreset h => ?_⟩
  · exact unlessReset_idle (if_neg fun hc => h.elim (fun hn => hn hc.1) fun hn => hn hc.2)
  · change execFrameEnd body s = _
    refine unlessReset_idle ?_
    split
    · rename_i hbody hf
      exact if_neg fun hc => (h _ hbody hf).elim (fun hlt => absurd hc.1 (not_le.mpr hlt)) fun hn => hn hc.2
    · rfl
  · refine unlessReset_idle (if_neg fun hc => ?_)
    obtain ⟨hbody, hrun⟩ := hc
    unfold State.frameRunning at hrun
    split at hrun
    · exact absurd (of_decide_eq_true hrun) (not_lt.mpr (h _ hbody ‹_›))
    · exact Bool.false_ne_true hrun
  · change execDiscardEnd s = _
    refine unlessReset_idle ?_
    split
    · rename_i hdisc hf
      exact if_neg (not_le.mpr (h _ hdisc hf))
    · rfl
  · have hfall : s.fallEndsFrame = true := by
      rcases h with hh | ⟨f, hb, hf, hlt⟩
      · rw [State.fallEndsFrame, hh]
      · rw [State.fallEndsFrame, hb, State.frameRunning, hf]
        exact decide_eq_true hlt
    show execMediumBusyChange false s = .next s
    rw [execMediumBusyChange, hreset, hfall]
    rfl

/-- The rows of the sender in a state in which they cannot occur. -/
theorem sender_idle (s : State) :
    ((∀ e, s.tx.state = .defer → s.tx.guard = some e → s.now < e) → exec .guardGapComplete s = .next s) ∧
    ((∀ e, s.tx.state = .backoff → s.tx.slotEnd = some e → s.now < e) → exec .backoffSlotEnd s = .next s) ∧
    ((∀ e, s.tx.state = .sending → s.tx.ends = some e → s.now < e) → exec .transmissionEnd s = .next s) ∧
    ((∀ a, s.tx.ackOwed = some a → s.now < a.due ∨ s.transmitting = true) → exec .shortGapExpiry s = .next s) ∧
    ((∀ fr e, s.tx.ackAir = some (fr, e) → s.now < e) → exec .ackTransmissionEnd s = .next s) ∧
    ((∀ e, s.tx.state = .awaitAck → s.tx.ackWait = some e → s.now < e) → exec .ackWaitExpiry s = .next s) := by
  refine ⟨fun h => ?_, fun h => ?_, fun h => ?_, fun h => ?_, fun h => ?_, fun h => ?_⟩
  · exact unlessReset_idle (if_neg fun hc => not_reached (fun e he => h e hc.1 he) hc.2)
  · exact unlessReset_idle (if_neg fun hc => not_reached (fun e he => h e hc.1 he) hc.2)
  · change execTransmissionEnd s = _
    refine unlessReset_idle ?_
    split
    · rename_i hsend _
      exact if_neg (not_reached fun e he => h e hsend he)
    · rfl
  · change execShortGapExpiry s = _
    refine unlessReset_idle ?_
    split
    · rename_i a ha
      refine if_neg fun hc => ?_
      rcases h a ha with hlt | hon
      · exact absurd hc.1 (not_le.mpr hlt)
      · exact Bool.false_ne_true (hc.2.symm.trans hon)
    · rfl
  · change execAckTransmissionEnd s = _
    refine unlessReset_idle ?_
    split
    · rename_i a ha
      exact if_neg (not_le.mpr (h a.1 a.2 ha))
    · rfl
  · exact unlessReset_idle (if_neg fun hc => not_reached (fun e he => h e hc.1 he) hc.2)

/-- The records' rows in a state in which they cannot occur. -/
theorem record_idle (s : State) (i : Nat) :
    let none? (due : Record → Nat → Prop) : Prop := ∀ r e, s.rec? i = some r → due r e → s.now < e
    let noneMs (due : Record → Nat → Prop) : Prop := ∀ r e, s.rec? i = some r → due r e → s.nowMs < e
    let held (r : Record) : Prop := r.fade.state = .faded ∨ r.fade.state = .leaving
    ((∀ r, s.rec? i = some r → r.link = .up → r.silence / 1000 < s.cfg.kSilence * r.advert.mode.interval) →
      exec (.silenceLimitReached i) s = .next s) ∧
    ((∀ r, s.rec? i = some r → (r.link = .heard ∨ r.link = .lost) → s.nowMs - r.lastHeard < 1000 * s.cfg.forget) →
      exec (.aged i) s = .next s) ∧
    (none? (fun r e => r.initWait = some e) → exec (.initiationWaitExpiry i) s = .next s) ∧
    (none? (fun r e => ∃ x, r.exch = some x ∧ x.timer = e) → exec (.exchangeTimeout i) s = .next s) ∧
    (none? (fun r e => r.holdoff = some e) → exec (.offerHoldoffExpiry i) s = .next s) ∧
    (noneMs (fun r e => held r ∧ r.fade.brief = some e) → exec (.briefExpiry i) s = .next s) ∧
    (noneMs (fun r e => held r ∧ r.fade.settle = some e) → exec (.settleExpiry i) s = .next s) ∧
    (none? (fun r e => r.trim.state = .settling ∧ r.trim.timer = some e) → exec (.settleTimeout i) s = .next s) ∧
    (none? (fun r e => r.trim.state = .holdoff ∧ r.trim.timer = some e) → exec (.trimHoldoffExpiry i) s = .next s) ∧
    (none? (fun r e => r.windowEnd = some e) → exec (.peerWindowEnd i) s = .next s) := by
  intro none? noneMs held
  refine ⟨fun h => ?_, fun h => ?_, fun h => ?_, fun h => ?_, fun h => ?_, fun h => ?_, fun h => ?_, fun h => ?_,
    fun h => ?_, fun h => ?_⟩
  · change execSilenceLimitReached i s = _
    refine unlessReset_idle ?_
    split
    · rename_i r hr
      exact if_neg fun hc => absurd hc.2 (not_le.mpr (h r hr hc.1))
    · rfl
  · change execAged i s = _
    refine unlessReset_idle ?_
    split
    · rename_i r hr
      refine if_neg fun hc => ?_
      simp only [State.pastForget, Bool.and_eq_true, Bool.or_eq_true, decide_eq_true_eq] at hc
      exact absurd hc.2 (not_le.mpr (h r hr hc.1))
    · rfl
  · change execInitiationWaitExpiry i s = _
    refine unlessReset_idle ?_
    split
    · rename_i r hr
      exact if_neg (not_reached fun e he => h r e hr he)
    · rfl
  · change execExchangeTimeout i s = _
    refine unlessReset_idle ?_
    split
    · rename_i x hx
      refine if_neg (not_le.mpr ?_)
      obtain ⟨r, hr, hx⟩ := Option.bind_eq_some_iff.mp hx
      exact h r x.timer hr ⟨x, hx, rfl⟩
    · rfl
  · change execOfferHoldoffExpiry i s = _
    refine unlessReset_idle ?_
    split
    · rename_i r hr
      exact if_neg (not_reached fun e he => h r e hr he)
    · rfl
  · change execBriefExpiry i s = _
    refine unlessReset_idle ?_
    split
    · rename_i r hr
      exact if_neg fun hc => not_reached (fun e he => h r e hr ⟨(held_iff _).mp hc.1, he⟩) hc.2
    · rfl
  · change execSettleExpiry i s = _
    refine unlessReset_idle ?_
    split
    · rename_i r hr
      split
      · exact if_neg fun hc => absurd hc.2 (not_le.mpr (h r _ hr ⟨(held_iff _).mp hc.1, ‹_›⟩))
      · rfl
    · rfl
  · change execSettleTimeout i s = _
    refine unlessReset_idle ?_
    split
    · rename_i r hr
      exact if_neg fun hc => not_reached (fun e he => h r e hr ⟨hc.1, he⟩) hc.2
    · rfl
  · change execTrimHoldoffExpiry i s = _
    refine unlessReset_idle ?_
    split
    · rename_i r hr
      exact if_neg fun hc => not_reached (fun e he => h r e hr ⟨hc.1, he⟩) hc.2
    · rfl
  · change execPeerWindowEnd i s = _
    refine unlessReset_idle ?_
    split
    · rename_i r hr
      exact if_neg (not_reached fun e he => h r e hr he)
    · rfl

/-- The station's rows in a state in which they cannot occur. -/
theorem station_idle (s : State) :
    (∀ k, (∀ q, s.fwd[k]? = some q → q.waitDue = true → s.nowMs - q.entered < 1000 * s.cfg.tWait) →
      exec (.waitLimitExpiry k) s = .next s) ∧
    (∀ dest, (∀ p, s.paths.find? (fun q => decide (q.dest = dest)) = some p →
        s.nowMs - p.refresh < 1000 * s.cfg.routeAge) → exec (.routeAgeExpiry dest) s = .next s) ∧
    ((∀ e, s.station = .acquiring → s.duty.acquisition = some e → s.now < e) →
      exec .acquisitionExpiry s = .next s) ∧
    ((∀ e, s.station = .onAir → s.duty.mode ≠ .doze → s.duty.stepDown = some e → s.now < e) →
      exec .stepDownExpiry s = .next s) ∧
    ((∀ e, s.station = .onAir → s.duty.nextDue = some e → s.now < e) → exec .beaconDue s = .next s) ∧
    ((∀ e, (s.duty.listen = .window e ∨ s.duty.listen = .survey e) → s.now < e) →
      exec .listenPeriodEnd s = .next s) ∧
    ((∀ e, s.check.state = .pacing e → s.now < e) → exec .checkPaceExpiry s = .next s) ∧
    ((∀ n e, s.check.state = .outstanding n e → s.now < e) → exec .reflectTimeout s = .next s) := by
  refine ⟨fun k h => ?_, fun dest h => ?_, fun h => ?_, fun h => ?_, fun h => ?_, fun h => ?_, fun h => ?_,
    fun h => ?_⟩
  · change execWaitLimitExpiry k s = _
    refine unlessReset_idle ?_
    split
    · rename_i q hq
      refine if_neg fun hc => ?_
      obtain ⟨hdue, hpast⟩ := Bool.and_eq_true_iff.mp hc
      exact absurd (of_decide_eq_true hpast) (not_le.mpr (h q hq hdue))
    · rfl
  · refine unlessReset_idle (if_neg fun hc => ?_)
    unfold State.routeOld at hc
    split at hc
    · exact absurd (of_decide_eq_true hc) (not_le.mpr (h _ ‹_›))
    · exact Bool.false_ne_true hc
  · exact unlessReset_idle (if_neg fun hc => not_reached (fun e he => h e hc.1 he) hc.2)
  · exact unlessReset_idle (if_neg fun hc => not_reached (fun e he => h e hc.1 hc.2.1 he) hc.2.2)
  · change execBeaconDue s = _
    refine unlessReset_idle ?_
    split
    · rename_i e he
      exact if_neg fun hc => absurd hc.2 (not_le.mpr (h e hc.1 he))
    · rfl
  · refine unlessReset_idle (if_neg (not_reached fun e he => h e ?_))
    unfold ListenPeriod.ends? at he
    split at he
    · exact .inl (by rw [‹s.duty.listen = _›, Option.some.inj he])
    · exact .inr (by rw [‹s.duty.listen = _›, Option.some.inj he])
    · cases he
    · cases he
  · change execCheckPaceExpiry s = _
    refine unlessReset_idle ?_
    split
    · exact if_neg (not_le.mpr (h _ ‹_›))
    · rfl
  · change execReflectTimeout s = _
    refine unlessReset_idle ?_
    split
    · exact if_neg (not_le.mpr (h _ _ ‹_›))
    · rfl

theorem hostRows_idle (s : State) :
    ∀ q ∈ ([(.loadSettings, 0x01), (.readSettings, 0x02), (.start, 0x03), (.stop, 0x04), (.reset, 0x05), (.send, 0x10),
        (.takeFrame, 0x11), (.takeReports, 0x12), (.readNeighbours, 0x20), (.readStation, 0x21), (.reseed, 0x30),
        (.forget, 0x31), (.checkStart, 0x40), (.checkStop, 0x41), (.checkFreeze, 0x42),
        (.checkRead, 0x43)] : List (Instr × Byte)),
      (∀ p, s.port = some p → p.complete = true → p.code ≠ q.2) → exec q.1 s = .next s := by
  simp only [List.forall_mem_cons, List.not_mem_nil, false_implies, implies_true, and_true]
  exact ⟨takeCommand_idle, takeCommand_idle, takeCommand_idle, takeCommand_idle, reset_idle, takeCommand_idle,
    takeCommand_idle, takeCommand_idle, takeCommand_idle, takeCommand_idle, takeCommand_idle, takeCommand_idle,
    takeCommand_idle, takeCommand_idle, takeCommand_idle, takeCommand_idle⟩

/-- Settles O2: no meaning stops, and each row's condition is the negation of its idle case. -/
theorem everyCommandAnswersNext : Obligations.EveryCommandAnswersNext :=
  ⟨exec_next, fun s => ⟨hostRows_idle s, unknown_idle, cutShort_idle, begun_idle⟩,
    fun s => ⟨(air_idle s).1, (air_idle s).2.1, (air_idle s).2.2.1, (air_idle s).2.2.2.1, (air_idle s).2.2.2.2.1,
      (air_idle s).2.2.2.2.2.1, (air_idle s).2.2.2.2.2.2, sender_idle s⟩,
    record_idle, station_idle⟩

end Sys2Proof.Machine


/-! The passing of time and the resets (R33, R169). -/

namespace Sys2Proof.Machine

/-- Settles O3: the tick of a state with no command waiting, its records read slot by slot. -/
theorem idleStepPassesOneMicrosecond : Obligations.IdleStepPassesOneMicrosecond := by
  refine ⟨fun s hs => ⟨s.tick, by rw [step, hs], rfl, rfl, fun hoff => if_pos hoff, fun hon i => ?_⟩,
    fun s => ⟨rfl, fun c hc => by rw [State.cfg, hc]; rfl, fun hn => ?_⟩⟩
  · rw [tick_rec?, if_neg hon]
    rfl
  · rw [State.cfg, hn]
    decide

/-! ## The reset line -/

/-- A meaning that does nothing while the part is held in reset. -/
def Disregards (f : State → Host.Outcome State Fault Refusal) : Prop := ∀ s, s.inReset = true → f s = .next s

theorem disregards_unlessReset (g : State → State) : Disregards (State.unlessReset g) := fun s h => by
  rw [State.unlessReset, if_pos h]

theorem held_mediumBusyChange {s : State} (h : s.inReset = true) (c : Bool) :
    exec (.mediumBusyChange c) s = .next { s with carrier := c } := by
  show execMediumBusyChange c s = _
  rw [execMediumBusyChange, if_pos h]

theorem exec_disregards (c : Instr) (hpower : c ≠ .powerOn) (hrelease : c ≠ .resetLineReleased)
    (hcarrier : ∀ b, c ≠ .mediumBusyChange b) : Disregards (exec c) := by
  cases c with
  | powerOn => exact absurd rfl hpower
  | resetLineReleased => exact absurd rfl hrelease
  | mediumBusyChange b => exact absurd rfl (hcarrier b)
  | _ => exact disregards_unlessReset _

/-- Settles O4: every other row is under the test of the reset line; the row of its assertion is read off. -/
theorem resetLineHoldsThePartStopped : Obligations.ResetLineHoldsThePartStopped := by
  refine ⟨fun c s h => ⟨held_mediumBusyChange h, fun h1 h2 h3 => exec_disregards c h1 h2 h3 s h⟩, fun s h => ?_⟩
  show execResetLineAsserted s = _
  rw [execResetLineAsserted, unlessReset_eq _ h]
  rfl

/-! ## The completion of a reset -/

theorem resetWith_hasResetValues (s : State) (cause : ResetCause) : (s.resetWith cause).HasResetValues cause :=
  ⟨⟨rfl, rfl, rfl, rfl, rfl, rfl, rfl, rfl, rfl, rfl⟩, ⟨rfl, rfl, rfl, rfl, rfl, rfl, rfl, rfl, rfl⟩, ⟨rfl, rfl⟩, rfl,
    rfl⟩

theorem released_resets {s : State} (h : s.inReset = true) : exec .resetLineReleased s = .next (s.resetWith .pin) := by
  show execResetLineReleased s = _
  rw [execResetLineReleased, if_pos h]

theorem released_idle {s : State} (h : s.inReset = false) : exec .resetLineReleased s = .next s := by
  show execResetLineReleased s = _
  rw [execResetLineReleased, h]
  rfl

theorem reset_resets {s : State} {p : Transaction} (h : s.closing 0x05 p) :
    exec .reset s = .next (s.resetWith .command) := by
  obtain ⟨hreset, hp, hdone, hcode⟩ := h
  show execReset s = _
  rw [execReset, unlessReset_eq _ hreset]
  simp [hp, hdone, hcode]

/-- Settles O5: each of the three rows runs the same reset with its own cause. -/
theorem resetsLeaveResetValues : Obligations.ResetsLeaveResetValues := fun s _ =>
  ⟨s.resetWith .power, rfl, resetWith_hasResetValues s .power, rfl, rfl,
    fun h => ⟨s.resetWith .pin, released_resets h, resetWith_hasResetValues s .pin, rfl⟩, released_idle,
    fun h => ⟨s.resetWith .command, reset_resets h, resetWith_hasResetValues s .command, rfl⟩⟩

/-! ## The state after reset -/

theorem reset_eq_resetWith : State.reset = State.resetWith .power { State.reset with serial := 0 } := rfl

/-- Settles O6: what every reset meets, at the first one. -/
theorem resetStateMeetsInvariants : Obligations.ResetStateMeetsInvariants := by
  unfold Obligations.ResetStateMeetsInvariants
  rw [reset_eq_resetWith]
  exact ⟨resetWith_poolInv _ _, boundsInv_kept.reset _ _, resetWith_attnInv _ _, tableInv_kept.reset _ _,
    queueOk_kept.reset _ _, measureInv_kept.reset _ _, routeInv_kept.reset _ _, resetWith_hasResetValues _ _, rfl⟩

end Sys2Proof.Machine


/-! The report queue (R135, R167) and the reselection of the next hop (R112 to R116). -/

namespace Sys2Proof.Machine

/-! ## The report queue -/

section
variable {a : Addr} {body : ReportBody}

theorem not_hasKey {r : Report} (h : r.body.kind ≠ body.kind ∨ r.addr ≠ a) : ¬hasKey body.kind a r = true := by
  simp only [hasKey, Bool.and_eq_true, decide_eq_true_eq, not_and_or]
  exact h

theorem overwrite_eq_none (slot : Option Nat) (stamp : Nat) {l : List Report}
    (h : ∀ r ∈ l, r.body.kind ≠ body.kind ∨ r.addr ≠ a) : overwrite a slot body stamp l = none := by
  induction l with
  | nil => rfl
  | cons r l ih =>
    obtain ⟨hr, hl⟩ := List.forall_mem_cons.mp h
    rw [overwrite, if_neg (not_hasKey hr), ih hl]
    rfl

theorem overwrite_first (slot : Option Nat) (stamp : Nat) {l u : List Report} {r : Report}
    (hkind : r.body.kind = body.kind) (haddr : r.addr = a)
    (h : ∀ q ∈ l, q.body.kind ≠ body.kind ∨ q.addr ≠ a) : overwrite a slot body stamp (l ++ r :: u) =
      some (l ++ { addr := a, slot := slot, body := coalesce r.body body, stamp := stamp } :: u) := by
  induction l with
  | nil => exact if_pos (by simp [hasKey, hkind, haddr])
  | cons q l ih =>
    obtain ⟨hq, hl⟩ := List.forall_mem_cons.mp h
    rw [List.cons_append, overwrite, if_neg (not_hasKey hq), ih hl]
    rfl

theorem coalesce_of_not_drop (old : ReportBody) (h : ∀ n g k v, body ≠ .drop n g k v) : coalesce old body = body := by
  unfold coalesce
  split
  · exact absurd rfl (h _ _ _ _)
  · rfl

end

theorem putReport_of_overwrite {s : State} {a : Addr} {slot : Option Nat} {body : ReportBody} {q : List Report}
    (h : overwrite a slot body s.serial s.reports = some q) :
    s.putReport a slot body = { s with reports := q, serial := s.serial + 1 } := by
  rw [State.putReport, h]

theorem putReport_of_none {s : State} {a : Addr} {slot : Option Nat} {body : ReportBody}
    (h : overwrite a slot body s.serial s.reports = none) : s.putReport a slot body =
      if s.reports.length < 32 then
        { s with reports := s.reports ++ [{ addr := a, slot := slot, body := body, stamp := s.serial }],
                 serial := s.serial + 1 }
      else { s with overrun := true, discards := s.discards + 1 } := by
  rw [State.putReport, h]

/-- Settles O60: the first report of the key is the one overwritten; without one the length decides. -/
theorem reportsCoalesceInPlace : Obligations.ReportsCoalesceInPlace := by
  refine ⟨fun s a slot body => ⟨fun h hlen => ?_, fun h hlen => ?_, fun l r u hl hkind haddr hother => ?_⟩,
    fun b => by cases b <;> rfl⟩
  · rw [putReport_of_none (overwrite_eq_none slot _ h), if_pos hlen]
  · rw [putReport_of_none (overwrite_eq_none slot _ h), if_neg (not_lt.mpr hlen)]
  · have hput := putReport_of_overwrite (hl ▸ overwrite_first slot s.serial (u := u) hkind haddr hother)
    refine ⟨fun hb => ?_, fun n g k v n' g' k' v' hr hb => ?_⟩
    · rw [hput, coalesce_of_not_drop _ hb]
    · rw [hput, hr, hb]
      rfl

/-! ## Reselection -/

theorem reselect_of_same {s : State} (h : s.reselect.route = s.route) : s.reselect = s := by
  rw [reselect_route] at h
  exact if_pos ⟨(congrArg Prod.fst h).symm, (congrArg Prod.snd h).symm⟩

theorem reselect_of_changed {s : State} (h : s.reselect.route ≠ s.route) :
    s.reselect = State.putReport 0 (s.reselect.nextHop.map NextHop.slot)
      (.route (hopAddr s.reselect.nextHop) s.reselect.advCost (hopAddr s.nextHop) s.advCost)
      { s with nextHop := s.reselect.nextHop, advCost := s.reselect.advCost,
               workAvailable := s.workAvailable || decide (s.nextHop ≠ s.reselect.nextHop) } := by
  have hroute := reselect_route s
  have hhop : s.reselect.nextHop = hopOf s.selectHop := congrArg Prod.fst hroute
  have hcost : s.reselect.advCost = s.costThrough s.selectHop := congrArg Prod.snd hroute
  rw [hhop, hcost]
  exact if_neg fun hsame => h (hroute.trans (Prod.ext hsame.1.symm hsame.2.symm))

theorem currentHop_eq_some_iff (s : State) (c : Nat × Record) : s.currentHop = some c ↔
    ∃ h, s.nextHop = some h ∧ h.slot = c.1 ∧ s.rec? c.1 = some c.2 ∧ c.2.peer = h.addr ∧ c.2.eligible = true := by
  unfold State.currentHop
  constructor
  · intro h
    split at h
    · cases h
    · rename_i hop hhop
      split at h
      · rename_i r hr
        split at h
        · rename_i hcond
          obtain ⟨helig, hpeer⟩ := Bool.and_eq_true_iff.mp hcond
          cases h
          exact ⟨hop, hhop, rfl, hr, of_decide_eq_true hpeer, helig⟩
        · cases h
      · cases h
  · rintro ⟨hop, hhop, hslot, hr, hpeer, helig⟩
    rw [hhop]
    dsimp only
    rw [hslot, hr]
    exact if_pos (Bool.and_eq_true_iff.mpr ⟨helig, decide_eq_true hpeer⟩)

section
variable {s : State}

theorem route_of_gateway (h : s.cfg.gateway = true) : s.reselect.route = (none, 0) := by
  have hs : s.selectHop = none := if_pos h
  rw [reselect_route, hs, State.costThrough, if_pos h]
  rfl

/-- The route that a choice gives at a station that is no gateway. -/
theorem route_of_select (h : s.cfg.gateway = false) {c : Nat × Record} (hs : s.selectHop = some c) :
    s.reselect.route = (some { slot := c.1, addr := c.2.peer }, c.2.pathCost) := by
  rw [reselect_route, hs, State.costThrough, if_neg (Bool.eq_false_iff.mp h)]
  rfl

theorem selectHop_eq (h : s.cfg.gateway = false) : s.selectHop = match s.currentHop, s.bestChoice with
    | none, best => best
    | some cur, none => some cur
    | some cur, some best =>
      if best.1 = cur.1 then some cur
      else if best.2.pathCost + s.cfg.sSw ≤ cur.2.pathCost then some best else some cur :=
  if_neg (Bool.eq_false_iff.mp h)

theorem route_without_choice (h : s.cfg.gateway = false) (hcur : s.currentHop = none) (hbest : s.bestChoice = none) :
    s.reselect.route = (none, 4095) := by
  have hs : s.selectHop = none := by rw [selectHop_eq h, hcur, hbest]
  rw [reselect_route, hs, State.costThrough, if_neg (Bool.eq_false_iff.mp h)]
  rfl

end

/-- Settles O59: the route written is the choice's; the report is the one of the change. -/
theorem reselectionHoldsTheSwitchMargin : Obligations.ReselectionHoldsTheSwitchMargin := by
  intro s t
  obtain ⟨_, _, _, _, _, _, _, he, -⟩ := reselect_eq s
  have hparts : t.fwd = s.fwd ∧ t.tx = s.tx ∧ t.rx = s.rx ∧ t.duty = s.duty ∧ t.check = s.check ∧
      t.relayed = s.relayed := by
    show s.reselect.fwd = s.fwd ∧ s.reselect.tx = s.tx ∧ s.reselect.rx = s.rx ∧ s.reselect.duty = s.duty ∧
      s.reselect.check = s.check ∧ s.reselect.relayed = s.relayed
    rw [he]
    exact ⟨rfl, rfl, rfl, rfl, rfl, rfl⟩
  obtain ⟨hfwd, htx, hrx, hduty, hcheck, hrelayed⟩ := hparts
  refine ⟨reselect_slots s, reselect_host s, hfwd, htx, hrx, hduty, hcheck, hrelayed, reselect_of_same,
    reselect_of_changed, reselect_reported s, route_of_gateway, fun h hcur hbest => route_without_choice h hcur hbest,
    fun b h hcur hbest => ?_, fun c b h hcur hbest hne => ⟨fun hle => ?_, fun hlt => ?_⟩,
    fun c b h hcur hbest heq => ?_, currentHop_eq_some_iff s, fun _ => rfl, rfl⟩
  · exact route_of_select h (by rw [selectHop_eq h, hcur, hbest])
  · exact route_of_select h (by rw [selectHop_eq h, hcur, hbest]; exact (if_neg hne).trans (if_pos hle))
  · exact route_of_select h (by rw [selectHop_eq h, hcur, hbest]; exact (if_neg hne).trans (if_neg (not_le.mpr hlt)))
  · exact route_of_select h (by rw [selectHop_eq h, hcur, hbest]; exact if_pos heq)

end Sys2Proof.Machine


/-! The fade machine (R76 to R83), one state at a time. -/

namespace Sys2Proof.Machine

section
variable {c : Settings} {now : Nat} {D : Int} {f : Fade}

theorem fadeStep_of_clear (h : f.state = .clear) : fadeStep c now D f =
    if D < enterLevel c then (f, none)
    else if c.eIn ≤ 1 then (Fade.enter c now (depthOf D), none)
    else ({ f with state := .entering, count := 1, maxDef := depthOf D }, none) := by
  rw [fadeStep, h]

theorem fadeStep_of_entering (h : f.state = .entering) : fadeStep c now D f =
    if D < enterLevel c then (Fade.none, none)
    else if c.eIn ≤ f.count + 1 then (Fade.enter c now (max f.maxDef (depthOf D)), none)
    else ({ f with count := f.count + 1, maxDef := max f.maxDef (depthOf D) }, none) := by
  rw [fadeStep, h]

theorem fadeStep_of_faded (h : f.state = .faded) : fadeStep c now D f =
    if exitLevel c ≤ D then ({ f with maxDef := max f.maxDef (depthOf D) }, none)
    else if c.eOut ≤ 1 then fadeStep.endOfFade c now f
    else ({ f with state := .leaving, count := 1, maxDef := max f.maxDef (depthOf D) }, none) := by
  rw [fadeStep, h]

theorem fadeStep_of_leaving (h : f.state = .leaving) : fadeStep c now D f =
    if exitLevel c ≤ D then ({ f with state := .faded, count := 0, maxDef := max f.maxDef (depthOf D) }, none)
    else if c.eOut ≤ f.count + 1 then fadeStep.endOfFade c now f
    else ({ f with count := f.count + 1, maxDef := max f.maxDef (depthOf D) }, none) := by
  rw [fadeStep, h]

/-- What ends a fade (R81): the last of the measurements below the exit level. -/
def FadeEnds (c : Settings) (D : Int) (f : Fade) : Prop :=
  D < exitLevel c ∧ (f.state = .leaving ∧ c.eOut ≤ f.count + 1 ∨ f.state = .faded ∧ c.eOut ≤ 1)

theorem fadeStep_of_ends (h : FadeEnds c D f) : fadeStep c now D f = fadeStep.endOfFade c now f := by
  obtain ⟨hout, ⟨hs, hn⟩ | ⟨hs, hn⟩⟩ := h
  · rw [fadeStep_of_leaving hs, if_neg (not_le.mpr hout), if_pos hn]
  · rw [fadeStep_of_faded hs, if_neg (not_le.mpr hout), if_pos hn]

/-- No other measurement makes a report. -/
theorem fadeStep_silent (h : ¬FadeEnds c D f) : (fadeStep c now D f).2 = none := by
  cases hs : f.state with
  | clear =>
    rw [fadeStep_of_clear hs]
    split
    · rfl
    · split <;> rfl
  | entering =>
    rw [fadeStep_of_entering hs]
    split
    · rfl
    · split <;> rfl
  | faded =>
    rw [fadeStep_of_faded hs]
    split
    · rfl
    · rw [if_neg fun hn => h ⟨not_le.mp ‹_›, .inr ⟨hs, hn⟩⟩]
  | leaving =>
    rw [fadeStep_of_leaving hs]
    split
    · rfl
    · rw [if_neg fun hn => h ⟨not_le.mp ‹_›, .inl ⟨hs, hn⟩⟩]

/-- The class of a fade that ends, with its duration and depth (R82). -/
theorem fadeStep_class (h : FadeEnds c D f) {b : Nat} (hb : f.start = some b) :
    (fadeStep c now D f).2 = (classify c f.shadow (now - b) f.maxDef).map fun k => (k, now - b, f.maxDef) := by
  rw [fadeStep_of_ends h, fadeStep.endOfFade, hb]
  rfl

theorem classify_shadow {shadow : Bool} {t depth : Nat} (h : shadow = true ∨ c.tBrief ≤ t) :
    classify c shadow t depth = some .shadowEnded :=
  if_pos (Bool.or_eq_true_iff.mpr (h.imp_right decide_eq_true))

theorem classify_dip {shadow : Bool} {t depth : Nat} (h : shadow = false) (ht : t < c.tBrief) :
    classify c shadow t depth =
      if t < c.tMin then none else if c.dDeep ≤ depth then some .pass else some .blip :=
  if_neg (by simp [h, ht])

end

theorem enter_eq {c : Settings} {now : Nat} (d : Nat) : Fade.enter c now d =
    { state := .faded, count := 0, start := some now, maxDef := d, shadow := false,
      brief := if 1000 * c.tSettle ≤ c.tBrief then none else some (now + c.tBrief),
      settle := some (now + max (1000 * c.tSettle) c.tBrief) } := by
  simp [Fade.enter, settleCarriesBrief]

/-- Settles O55: a clause per state and branch. -/
theorem fadeMachineDebounces : Obligations.FadeMachineDebounces := by
  refine ⟨fun c now D f => ?_, fun f => held_iff f.state⟩
  intro deep out q depth deepest clear entered ends
  have hdeep : deep = true → ¬D < enterLevel c := fun h => not_lt.mpr (of_decide_eq_true h)
  have hshallow : deep = false → D < enterLevel c := fun h => not_le.mp (of_decide_eq_false h)
  have hin : out = false → exitLevel c ≤ D := fun h => not_lt.mp (of_decide_eq_false h)
  have hout : out = true → ¬exitLevel c ≤ D := fun h => not_le.mpr (of_decide_eq_true h)
  have hends : ends ↔ FadeEnds c D f := and_congr_left fun _ => decide_eq_true_iff
  refine ⟨fun hs h => ?_, fun hs h hn => ?_, fun hs h hn => ?_, fun hs h => ?_, fun hs h hn => ?_, fun hs h hn => ?_,
    fun hs h => ?_, fun hs h hn => ?_, fun hs h => ?_, fun hs h hn => ?_, fun h => ?_, fun h => ?_,
    fun b h hb => ⟨fun hsh => ?_, fun hsh ht hmin => ?_, fun hsh ht hmin hd => ?_, fun hsh ht hmin hd => ?_⟩⟩
  · show (fadeStep c now D f).1 = f
    rw [fadeStep_of_clear hs, if_pos (hshallow h)]
  · show (fadeStep c now D f).1 = _
    rw [fadeStep_of_clear hs, if_neg (hdeep h), if_neg (not_le.mpr hn)]
    rfl
  · show (fadeStep c now D f).1 = _
    rw [fadeStep_of_clear hs, if_neg (hdeep h), if_pos hn]
    exact enter_eq _
  · show (fadeStep c now D f).1 = _
    rw [fadeStep_of_entering hs, if_pos (hshallow h)]
    rfl
  · show (fadeStep c now D f).1 = _
    rw [fadeStep_of_entering hs, if_neg (hdeep h), if_neg (not_le.mpr hn)]
    rfl
  · show (fadeStep c now D f).1 = _
    rw [fadeStep_of_entering hs, if_neg (hdeep h), if_pos hn]
    exact enter_eq _
  · show (fadeStep c now D f).1 = _
    rw [fadeStep_of_faded hs, if_pos (hin h)]
    rfl
  · show (fadeStep c now D f).1 = _
    rw [fadeStep_of_faded hs, if_neg (hout h), if_neg (not_le.mpr hn)]
    rfl
  · show (fadeStep c now D f).1 = _
    rw [fadeStep_of_leaving hs, if_pos (hin h)]
    rfl
  · show (fadeStep c now D f).1 = _
    rw [fadeStep_of_leaving hs, if_neg (hout h), if_neg (not_le.mpr hn)]
    rfl
  · show (fadeStep c now D f).1 = _
    rw [fadeStep_of_ends (hends.mp h)]
    rfl
  · exact fadeStep_silent fun he => h (hends.mpr he)
  · rw [fadeStep_class (hends.mp h) hb, classify_shadow hsh]
    rfl
  · rw [fadeStep_class (hends.mp h) hb, classify_dip hsh ht, if_pos hmin]
    rfl
  · rw [fadeStep_class (hends.mp h) hb, classify_dip hsh ht, if_neg (not_lt.mpr hmin), if_pos hd]
    rfl
  · rw [fadeStep_class (hends.mp h) hb, classify_dip hsh ht, if_neg (not_lt.mpr hmin), if_neg (not_le.mpr hd)]
    rfl

end Sys2Proof.Machine


/-! A measurement's stages (R64), the steps of the filter and the baseline toward their target (R65 to R70). -/

namespace Sys2Proof.Machine

/-! ## The steps -/

theorem forcedStep_pos {g d : Int} (hg : 0 ≤ g) (hg' : g ≤ 256) (hd : 0 < d) : 0 < forcedStep g d := by
  have hnn := (forcedStep_nonneg hg hg' hd.le).1
  refine lt_of_le_of_ne hnn fun h0 => ?_
  unfold forcedStep at h0
  split at h0
  · rw [Int.sign_eq_one_of_pos hd] at h0
    cases h0
  · exact absurd h0.symm ‹_›

/-- A step of a gain of at most 256/256 leads nearer to a target not yet reached. -/
theorem forcedStep_nearer {g a b : Int} (hg : 0 ≤ g) (hg' : g ≤ 256) (hne : a ≠ b) :
    |b - (a + forcedStep g (b - a))| < |b - a| := by
  have hbetween := forcedStep_between (a := a) (b := b) hg hg'
  rcases lt_or_gt_of_ne hne with h | h
  · have := forcedStep_pos hg hg' (Int.sub_pos_of_lt h)
    rw [abs_of_nonneg (by omega), abs_of_nonneg (by omega)]
    omega
  · have := forcedStep_pos hg hg' (Int.sub_pos_of_lt h)
    rw [← neg_sub a b, forcedStep_neg] at hbetween ⊢
    rw [abs_of_nonpos (by omega), abs_of_nonpos (by omega)]
    omega

/-! ## The stages -/

/-- What an announcement leaves of the record and of the rest of the state (R86). -/
theorem announceFade_leaves {s : State} {i : Nat} {r : Record} (was : Fade) (h : s.rec? i = some r) :
    ∃ r', (∀ j, (s.announceFade i was).rec? j = if j = i then some r' else s.rec? j) ∧
      r' = { r with trim := r'.trim, linkCost := r'.linkCost, pathCost := r'.pathCost, eligible := r'.eligible } ∧
      (r.fade.state = was.state → r.fade.shadow = was.shadow → r' = r) ∧
      (s.announceFade i was).host = s.host ∧ (s.announceFade i was).fwd = s.fwd ∧
      (s.announceFade i was).tx = s.tx ∧ (s.announceFade i was).rx = s.rx := by
  rcases announceFade_eq s was h with ⟨-, -, he⟩ | ⟨hne, hw⟩
  · refine ⟨r, fun j => ?_, rfl, fun _ _ => rfl, ?_⟩
    · rw [he]
      split
      · rename_i hj
        rw [hj, h]
      · rfl
    · rw [he]
      exact ⟨rfl, rfl, rfl, rfl⟩
  · obtain ⟨hrec, hhost, -, -, -, htx, hrx, hfwd, -⟩ := hw.spec (rec?_lt s h)
    refine ⟨_, hrec, ?_, fun h1 h2 => absurd ⟨h1, h2⟩ hne, hhost, hfwd, htx, hrx⟩
    split <;> rfl

section
variable {s : State} {i : Nat} {r : Record} (m : Nat) (h : s.rec? i = some r)
include h

theorem measure_seed : s.measure i m true = s.setSlot i (some { r with F := 16 * (m : Int), L := 16 * (m : Int) }) := by
  have hslot (q : Record) : (s.setSlot i (some q)).rec? i = some q := by rw [rec?_setSlot s i i _ (rec?_lt s h), if_pos rfl]
  rw [State.measure, h]
  show State.announceFade i r.fade (s.setSlot i (some { r with F := 16 * (m : Int), L := 16 * (m : Int) })) = _
  rw [State.announceFade, hslot]
  exact if_pos ⟨rfl, rfl⟩

/-- A measurement's record before the announcement: F, the fade part and L after their stages. -/
def Record.staged (c : Settings) (now m : Nat) (r : Record) : Record :=
  { r with F := filterStep c r.F m, fade := (fadeStep c now (r.L - filterStep c r.F m) r.fade).1,
           L := if (fadeStep c now (r.L - filterStep c r.F m) r.fade).1.state = .clear
             then baselineStep c (filterStep c r.F m) r.L else r.L }

theorem measure_silent (hf : (fadeStep s.cfg s.nowMs (r.L - filterStep s.cfg r.F m) r.fade).2 = none) :
    s.measure i m false = (s.setSlot i (some (r.staged s.cfg s.nowMs m))).announceFade i r.fade := by
  rw [State.measure, h]
  dsimp only [Record.measured, Bool.false_eq_true, if_false]
  rw [hf]
  rfl

theorem measure_reported {k : FadeClass × Nat × Nat}
    (hf : (fadeStep s.cfg s.nowMs (r.L - filterStep s.cfg r.F m) r.fade).2 = some k) :
    s.measure i m false = State.announceFade i r.fade ((s.setSlot i (some (r.staged s.cfg s.nowMs m))).putReport r.peer
      (some i) (.fade k.1 .none k.2.1 k.2.2 (r.staged s.cfg s.nowMs m).F (r.staged s.cfg s.nowMs m).L)) := by
  rw [State.measure, h]
  dsimp only [Record.measured, Bool.false_eq_true, if_false]
  rw [hf]
  rfl

/-- A measurement announces a state in which the record is staged and all but the reports is as before. -/
theorem measure_announces : ∃ u : State, s.measure i m false = u.announceFade i r.fade ∧
    (∀ j, u.rec? j = if j = i then some (r.staged s.cfg s.nowMs m) else s.rec? j) ∧ u.host = s.host ∧ u.fwd = s.fwd ∧
    u.tx = s.tx ∧ u.rx = s.rx := by
  have hslot (j : Nat) := rec?_setSlot s i j (some (r.staged s.cfg s.nowMs m)) (rec?_lt s h)
  cases hf : (fadeStep s.cfg s.nowMs (r.L - filterStep s.cfg r.F m) r.fade).2 with
  | none => exact ⟨_, measure_silent m h hf, hslot, rfl, rfl, rfl, rfl⟩
  | some k =>
    have he := measure_reported m h hf
    obtain ⟨_, _, _, _, hput⟩ := putReport_eq (s.setSlot i (some (r.staged s.cfg s.nowMs m))) r.peer (some i)
      (.fade k.1 .none k.2.1 k.2.2 (r.staged s.cfg s.nowMs m).F (r.staged s.cfg s.nowMs m).L)
    rw [hput] at he
    exact ⟨_, he, hslot, rfl, rfl, rfl, rfl⟩

end

/-- Settles O54: the announcement read on the staged record, and the arithmetic of the two steps. -/
theorem measurementStagesInOrder : Obligations.MeasurementStagesInOrder := by
  refine ⟨fun s i m r h => ⟨measure_seed m h, ?_⟩, fun s i m r h => ?_, fun c F L m hc => ?_, fun c F L => ?_⟩
  · obtain ⟨u, he, hrec, hhost, hfwd, htx, hrx⟩ := measure_announces m h
    have hr : u.rec? i = some (r.staged s.cfg s.nowMs m) := by rw [hrec, if_pos rfl]
    obtain ⟨r', hrec', hr', hsame, hhost', hfwd', htx', hrx'⟩ := announceFade_leaves r.fade hr
    have hF : r'.F = filterStep s.cfg r.F m := by rw [hr']; rfl
    have hfade : r'.fade = (fadeStep s.cfg s.nowMs (r.L - filterStep s.cfg r.F m) r.fade).1 := by rw [hr']; rfl
    have hL : r'.L = if r'.fade.state = .clear then baselineStep s.cfg r'.F r.L else r.L := by
      rw [hfade, hF, hr']; rfl
    rw [he]
    refine ⟨r', by rw [hrec', if_pos rfl], hF, hfade, hL, by rw [hr']; rfl, fun h1 h2 => ?_, fun j hj => ?_,
      hhost'.trans hhost, hfwd'.trans hfwd, htx'.trans htx, hrx'.trans hrx⟩
    · rw [hfade] at h1 h2
      rw [hsame h1 h2]
      exact ⟨rfl, rfl⟩
    · rw [hrec', if_neg hj, hrec, if_neg hj]
  · intro F f r1 u
    refine ⟨fun hf => measure_silent m h hf, fun cls duration depth hf => ?_⟩
    exact measure_reported m h hf
  · have hg := filterGain_bounds hc (Int.tdiv |16 * (m : Int) - F| 16)
    have hF := filterStep_between hc F m
    have hL := baselineStep_between hc F L
    obtain ⟨-, -, -, hlow, hhigh⟩ := hc
    exact ⟨hF.1, hF.2, fun hne => forcedStep_nearer (by omega) hg.2 hne, hL.1, hL.2,
      fun hne => forcedStep_nearer (by omega) (by omega) hne⟩
  · intro d q
    refine ⟨fun h => ?_, fun h hd => ?_, fun h hd => ?_, fun hd => ?_⟩
    · rw [baselineStep, forcedStep_of_quotient h]
    · rw [baselineStep, forcedStep_of_pos h hd]
    · rw [baselineStep, forcedStep_of_neg h hd, Int.sub_eq_add_neg]
    · rw [baselineStep, show F - L = 0 from hd, forcedStep_zero, Int.add_zero]

end Sys2Proof.Machine


/-! A trim from its trigger to its end (R92 to R103). -/

namespace Sys2Proof.Machine

/-! ## The wanted step and the judgement -/

/-- Halving toward zero leaves a rest of at most 1. -/
theorem abs_sub_two_mul_tdiv (x : Int) : |x - 2 * Int.tdiv x 2| ≤ 1 := by
  rcases le_total 0 x with h | h
  · rw [Int.tdiv_eq_ediv_of_nonneg h, abs_le]
    omega
  · obtain ⟨y, rfl⟩ : ∃ y, x = -y := ⟨-x, (neg_neg x).symm⟩
    rw [Int.neg_tdiv, Int.tdiv_eq_ediv_of_nonneg (by omega), abs_le]
    omega

theorem inWindow_iff (c : Settings) (X : Int) : inWindow c X = true ↔ |X - c.mTgt| ≤ c.hTrim := by
  rw [inWindow, Bool.and_eq_true, decide_eq_true_eq, decide_eq_true_eq, abs_le]
  omega

section
variable (c : Settings) (X : Int) (p : Nat)

theorem judgeTrim_set_iff : judgeTrim c X p = .set ↔ |X - c.mTgt| ≤ c.hTrim := by
  rw [← inWindow_iff]
  unfold judgeTrim
  split
  · simp [*]
  · split
    · simp [*]
    · split <;> simp [*]

theorem judgeTrim_weak_iff : judgeTrim c X p = .weak ↔ p = 31 ∧ X < (c.mTgt : Int) - c.hTrim := by
  unfold judgeTrim
  split
  · rename_i hin
    rw [inWindow, Bool.and_eq_true, decide_eq_true_eq, decide_eq_true_eq] at hin
    simp only [reduceCtorEq, false_iff]
    omega
  · split
    · simp only [*, and_self]
    · rename_i hweak
      split <;> exact ⟨(fun hc => by cases hc), fun hc => absurd hc hweak⟩

theorem judgeTrim_strong_iff : judgeTrim c X p = .strong ↔ p = 0 ∧ (c.mTgt : Int) + c.hTrim < X := by
  unfold judgeTrim
  split
  · rename_i hin
    rw [inWindow, Bool.and_eq_true, decide_eq_true_eq, decide_eq_true_eq] at hin
    simp only [reduceCtorEq, false_iff]
    omega
  · split
    · simp only [reduceCtorEq, false_iff]
      omega
    · split <;> simp only [*, reduceCtorEq, and_self]

theorem judgeTrim_ne_silent : judgeTrim c X p ≠ .silent := by
  unfold judgeTrim
  split
  · decide
  · split
    · decide
    · split <;> decide

end

/-! ## The start of a trim -/

section
variable {c : Settings} {now : Nat} {t : Trim} {e : Nat}

theorem started_eq (h : t.echo = some e) : t.started c now =
    { t with step := (max 0 (min 31 (wantedStep c e))).toNat,
             clamped := decide (wantedStep c e < 0) || decide (31 < wantedStep c e),
             state := .settling, count := 0, timer := some (now + secs c.settleTimeout) } := by
  rw [Trim.started, h]

theorem started_clamped_iff (h : t.echo = some e) :
    (t.started c now).clamped = true ↔ wantedStep c e < 0 ∨ 31 < wantedStep c e := by
  rw [started_eq h]
  simp

theorem started_step (h : t.echo = some e) : (t.started c now).step = (max 0 (min 31 (wantedStep c e))).toNat := by
  rw [started_eq h]

/-- A wanted step within reach leaves X within 1 qdB of the target. -/
theorem started_on_target (h : t.echo = some e) (h0 : 0 ≤ wantedStep c e) (h31 : wantedStep c e ≤ 31) :
    ((t.started c now).step : Int) = wantedStep c e ∧
      |(e : Int) - 2 * (31 - ((t.started c now).step : Int)) - c.mTgt| ≤ 1 := by
  have hstep : ((t.started c now).step : Int) = wantedStep c e := by
    rw [started_step h]
    omega
  refine ⟨hstep, ?_⟩
  rw [hstep, wantedStep]
  have := abs_sub_two_mul_tdiv ((e : Int) - c.mTgt)
  rw [show (e : Int) - 2 * (31 - (31 - Int.tdiv ((e : Int) - c.mTgt) 2)) - c.mTgt =
    (e : Int) - c.mTgt - 2 * Int.tdiv ((e : Int) - c.mTgt) 2 by ring]
  exact this

end

/-! ## The trigger and the end of a settling -/

theorem trimTriggers_iff (c : Settings) (r : Record) : trimTriggers c r = true ↔
    r.link = .up ∧ r.fade.state = .clear ∧ r.trim.state = .idle ∧
      ∃ e, r.trim.echo = some e ∧ (c.hTrim : Int) < |(e : Int) - 2 * (31 - (r.trim.step : Int)) - c.mTgt| := by
  unfold trimTriggers
  cases he : r.trim.echo with
  | none => simp
  | some e =>
    have hwin := inWindow_iff c (expectedMargin e r.trim.step)
    have hout : inWindow c (expectedMargin e r.trim.step) = false ↔
        (c.hTrim : Int) < |(e : Int) - 2 * (31 - (r.trim.step : Int)) - c.mTgt| := by
      rw [← not_le, ← Bool.not_eq_true, hwin]
      rfl
    simp [hout, and_assoc]

section
variable {s : State} {i : Nat} {r : Record} (h : s.rec? i = some r)
include h

theorem assessTrim_of_triggers (ht : trimTriggers s.cfg r = true) :
    s.assessTrim i = s.setSlot i (some { r with trim := r.trim.started s.cfg s.now }) := by
  rw [assessTrim_eq s h, if_pos ht]

theorem assessTrim_idle (ht : ¬trimTriggers s.cfg r = true) : s.assessTrim i = s := by
  rw [assessTrim_eq s h, if_neg ht, setSlot_self s h]

end

/-- A settling that has ended does not meet the trigger: SET has X in the window, any other outcome is in HOLDOFF. -/
theorem not_triggers_of_ended {c : Settings} {now : Nat} {r : Record} {e : Nat} (he : r.trim.echo = some e) :
    ¬trimTriggers c { r with
      trim := r.trim.ended c now (judgeTrim c (expectedMargin e r.trim.step) r.trim.step) } = true := by
  rw [trimTriggers_iff]
  rintro ⟨-, -, hidle, e', he', hout⟩
  have hset : judgeTrim c (expectedMargin e r.trim.step) r.trim.step = .set := by
    by_contra hne
    dsimp only [Trim.ended] at hidle
    rw [if_neg hne] at hidle
    cases hidle
  rw [judgeTrim_set_iff] at hset
  have hsame : e' = e := Option.some.inj (he'.symm.trans he)
  subst hsame
  exact absurd hout (not_lt.mpr hset)

/-- The record of a slot whose echo is taken (R93), with its settle count. -/
def Record.echoed (e n : Nat) (r : Record) : Record := { r with trim := { r.trim with echo := some e, count := n } }

section
variable {s : State} {i : Nat} {r : Record} (h : s.rec? i = some r) (hup : r.link = .up) (e : Nat)
include h hup

theorem takeEcho_unsettled (hst : r.trim.state ≠ .settling) :
    s.takeEcho i e = ((s.setSlot i (some (r.echoed e r.trim.count))).assessTrim i).rerate i := by
  rw [State.takeEcho, h]
  dsimp only
  rw [if_pos hup, decide_eq_false hst]
  rfl

theorem takeEcho_settling (hst : r.trim.state = .settling) (hn : r.trim.count + 1 < s.cfg.kSettle) :
    s.takeEcho i e = ((s.setSlot i (some (r.echoed e (r.trim.count + 1)))).assessTrim i).rerate i := by
  rw [State.takeEcho, h]
  dsimp only
  rw [if_pos hup, decide_eq_true hst, if_pos rfl, decide_eq_false (not_le.mpr hn)]
  rfl

theorem takeEcho_settled (hst : r.trim.state = .settling) (hn : s.cfg.kSettle ≤ r.trim.count + 1) :
    s.takeEcho i e = (((s.setSlot i (some (r.echoed e (r.trim.count + 1)))).endTrim i
      (judgeTrim s.cfg (expectedMargin e r.trim.step) r.trim.step)).assessTrim i).rerate i := by
  rw [State.takeEcho, h]
  dsimp only
  rw [if_pos hup, decide_eq_true hst, if_pos rfl, decide_eq_true hn]
  rfl

end

/-- An echo that ends a settling does not meet the trigger. -/
theorem assessTrim_endTrim {s : State} {i : Nat} {r : Record} (h : s.rec? i = some r) (e n : Nat) :
    ((s.setSlot i (some (r.echoed e n))).endTrim i (judgeTrim s.cfg (expectedMargin e r.trim.step) r.trim.step)).assessTrim
      i = (s.setSlot i (some (r.echoed e n))).endTrim i (judgeTrim s.cfg (expectedMargin e r.trim.step) r.trim.step) := by
  rw [endTrim_setSlot s _ _ (rec?_lt s h)]
  generalize Record.trimReport _ _ _ _ = body
  have hput := putReport_host s (r.echoed e n).peer (some i) body
  refine assessTrim_idle (by rw [rec?_setSlot _ i i _ (rec?_lt _ ((putReport_rec? s _ _ _ i).trans h)), if_pos rfl]) ?_
  rw [setSlot_cfg, cfg_congr hput]
  exact not_triggers_of_ended (r := r.echoed e n) rfl

/-- Settles O57: the arithmetic of the step and the judgement, then each operation by the state of the trim. -/
theorem trimSetsTheWantedStep : Obligations.TrimSetsTheWantedStep := by
  refine ⟨fun c now t e X p he => ?_, fun s i r h => ?_⟩
  · intro w
    have hstep := started_step (c := c) (now := now) he
    refine ⟨by omega, by rw [started_eq he], by rw [started_eq he], by rw [started_eq he]; rfl, by rw [started_eq he, ← he],
      by rw [started_eq he], by rw [started_eq he], started_clamped_iff he, started_on_target he, fun hw => ?_,
      fun hw => ?_, judgeTrim_set_iff c X p, judgeTrim_weak_iff c X p, judgeTrim_strong_iff c X p,
      judgeTrim_ne_silent c X p⟩
    · have hw' : wantedStep c e < 0 := hw
      omega
    · have hw' : 31 < wantedStep c e := hw
      omega
  · intro triggers
    have hslot (q : Record) : (s.setSlot i (some q)).rec? i = some q := by
      rw [rec?_setSlot s i i _ (rec?_lt s h), if_pos rfl]
    have hiff : trimTriggers s.cfg r = true ↔ triggers := trimTriggers_iff s.cfg r
    refine ⟨fun ht => assessTrim_of_triggers h (hiff.mpr ht), fun ht => assessTrim_idle h fun hc => ht (hiff.mp hc),
      fun o e he => ?_, fun e => ?_, fun was => ?_⟩
    · intro r1
      rw [State.endTrim, h]
      dsimp only
      rw [he]
      rfl
    · intro taken
      have hbusy (q : Record) (hq : q.trim.state ≠ .idle) : (s.setSlot i (some q)).assessTrim i = s.setSlot i (some q) :=
        assessTrim_idle (hslot q) fun hc => hq ((trimTriggers_iff _ _).mp hc).2.2.1
      refine ⟨fun hl => ?_, fun hl hst => ?_, fun hl hst => ?_, fun hl hst hn => ?_, fun hl hst hn => ?_⟩
      · rw [State.takeEcho, h]
        exact if_neg hl
      · exact takeEcho_unsettled h hl e (by rw [hst]; decide)
      · rw [takeEcho_unsettled h hl e (by rw [hst]; decide), hbusy _ (by show r.trim.state ≠ _; rw [hst]; decide)]
        rfl
      · rw [takeEcho_settling h hl e hst hn, hbusy _ (by show r.trim.state ≠ _; rw [hst]; decide)]
        rfl
      · rw [takeEcho_settled h hl e hst hn, assessTrim_endTrim h e]
        rfl
    · refine ⟨fun h1 h2 => ?_, fun h1 h2 => ?_, fun hne h1 => ?_⟩
      · rw [State.announceFade, h]
        exact if_pos ⟨h1, h2⟩
      · rw [State.announceFade, h]
        dsimp only
        rw [if_neg fun hc => h2 (hc.1.symm.trans h1), if_pos ⟨h1, h2⟩]
      · rw [State.announceFade, h]
        dsimp only
        rw [if_neg fun hc => hne.elim (fun hn => hn hc.1) fun hn => hn hc.2,
          if_neg fun hc => h1.elim (fun hn => hn hc.1) fun hn => hc.2 hn]

end Sys2Proof.Machine


/-! The pattern bytes of a probe (R152). -/

namespace Sys2Proof.Machine

/-! ## The register -/

theorem prbsStep_bit (r : BitVec 15) (j : Nat) (hj : j < 15) : (prbsStep r).getLsbD j =
    if j = 0 then (r.getLsbD 14 != r.getLsbD 13) else r.getLsbD (j - 1) := by
  rw [prbsStep, BitVec.getLsbD_or, BitVec.getLsbD_shiftLeft]
  cases j with
  | zero => cases r.getLsbD 14 <;> cases r.getLsbD 13 <;> rfl
  | succ j =>
    have hhigh : (if (r.getLsbD 14 != r.getLsbD 13) = true then 1#15 else 0#15).getLsbD (j + 1) = false := by
      split <;> simp [BitVec.getLsbD_one]
    rw [hhigh, Bool.or_false, decide_eq_true hj, if_neg (Nat.succ_ne_zero j)]
    rfl

/-- The outputs of a register in the bits of a number, the first the most significant, above the bits it began with. -/
theorem prbsBits_testBit (n : Nat) (r : BitVec 15) (acc : Nat) :
    (∀ k, (prbsBits n r acc).1.testBit (n + k) = acc.testBit k) ∧
      ∀ j < n, (prbsBits n r acc).1.testBit (n - 1 - j) = (prbsStep^[j + 1] r).getLsbD 0 := by
  induction n generalizing r acc with
  | zero => exact ⟨fun k => by rw [prbsBits, Nat.zero_add], fun j hj => absurd hj (Nat.not_lt_zero j)⟩
  | succ n ih =>
    obtain ⟨hacc, hout⟩ := ih (prbsStep r) (2 * acc + if (prbsStep r).getLsbD 0 then 1 else 0)
    refine ⟨fun k => ?_, fun j hj => ?_⟩
    · rw [prbsBits, Nat.add_right_comm, Nat.add_assoc, hacc, Nat.testBit_add_one]
      congr 1
      split <;> omega
    · cases j with
      | zero =>
        have h0 := hacc 0
        rw [prbsBits, show n + 1 - 1 - 0 = n + 0 by omega, h0, Nat.testBit_zero]
        show _ = (prbsStep r).getLsbD 0
        cases (prbsStep r).getLsbD 0 <;> simp
      | succ j =>
        rw [prbsBits, show n + 1 - 1 - (j + 1) = n - 1 - j by omega, hout j (by omega)]
        rfl

theorem prbsBits_after (n : Nat) (r : BitVec 15) (acc : Nat) : (prbsBits n r acc).2 = prbsStep^[n] r := by
  induction n generalizing r acc with
  | zero => rfl
  | succ n ih => exact ih _ _

theorem prbsBytes_length (n : Nat) (r : BitVec 15) : (prbsBytes n r).length = n := by
  induction n generalizing r with
  | zero => rfl
  | succ n ih => rw [prbsBytes, List.length_cons, ih]

theorem prbsBytes_getElem? (n : Nat) (r : BitVec 15) (i : Nat) (hi : i < n) :
    (prbsBytes n r)[i]? = some (byteOf (prbsBits 8 (prbsStep^[8 * i] r) 0).1) := by
  induction n generalizing r i with
  | zero => exact absurd hi (Nat.not_lt_zero i)
  | succ n ih =>
    cases i with
    | zero => rfl
    | succ i =>
      rw [prbsBytes, List.getElem?_cons_succ, ih _ i (by omega), prbsBits_after, ← Function.iterate_add_apply,
        Nat.mul_succ]

/-- Settles O52: the register's bits, and each pattern read at a byte. -/
theorem probePatternsFollowTheRegister : Obligations.ProbePatternsFollowTheRegister := by
  refine ⟨fun c k => ?_, fun r => ⟨prbsStep_bit r 0 (by decide), fun j hj => prbsStep_bit r (j + 1) (by omega)⟩⟩
  intro start
  have hstart : start.toNat = (c.base + k) % 32767 + 1 :=
    Nat.mod_eq_of_lt (show (c.base + k) % 32767 + 1 < 32768 by omega)
  refine ⟨?_, hstart, fun i hi => ⟨fun hp => ?_, fun hp => ⟨byteOf (k + i), ?_, rfl⟩,
    fun hp => ⟨byteOf (prbsBits 8 (prbsStep^[8 * i] start) 0).1, ?_, fun j hj => ?_⟩⟩⟩
  · unfold patternBytes
    split
    · exact List.length_replicate
    · rw [List.length_map, List.length_range]
    · exact prbsBytes_length _ _
  · rw [patternBytes, hp]
    exact List.getElem?_replicate_of_lt hi
  · rw [patternBytes, hp, List.getElem?_map, List.getElem?_range hi]
    rfl
  · rw [patternBytes, hp]
    exact prbsBytes_getElem? c.length _ i hi
  · have hbit := (prbsBits_testBit 8 (prbsStep^[8 * i] start) 0).2 j hj
    rw [← Function.iterate_add_apply, show j + 1 + 8 * i = 8 * i + j + 1 by omega] at hbit
    rw [byteOf, BitVec.getLsbD_ofNat, decide_eq_true (by omega), Bool.true_and]
    exact hbit

end Sys2Proof.Machine


/-! The layouts of the air (12_formats, section 12.1): bytes read back, the check of R170, headers and bodies. -/

namespace Sys2Proof.Machine

/-! ## Bytes -/

theorem toNat_byteOf (n : Nat) : (byteOf n).toNat = n % 256 := rfl

theorem natBE_concat (bs : List Byte) (b : Byte) : natBE (bs ++ [b]) = natBE bs * 256 + b.toNat := by
  rw [natBE, List.foldl_append]
  rfl

theorem natBE_be16 {n : Nat} (h : n < 65536) : natBE (be16 n) = n := by
  show (0 * 256 + (byteOf (n / 256)).toNat) * 256 + (byteOf n).toNat = n
  rw [toNat_byteOf, toNat_byteOf]
  omega

theorem be32_eq (n : Nat) : be32 n = [byteOf (n / 16777216), byteOf (n / 65536), byteOf (n / 256), byteOf n] := by
  show [byteOf (n / 65536 / 256), byteOf (n / 65536), byteOf (n / 256), byteOf n] = _
  rw [Nat.div_div_eq_div_mul]

theorem natBE_be32 {n : Nat} (h : n < 4294967296) : natBE (be32 n) = n := by
  rw [be32_eq]
  show (((0 * 256 + (byteOf (n / 16777216)).toNat) * 256 + (byteOf (n / 65536)).toNat) * 256 +
    (byteOf (n / 256)).toNat) * 256 + (byteOf n).toNat = n
  simp only [toNat_byteOf]
  omega

theorem addr_lt (a : Addr) : a.toNat < 4096 := a.isLt

theorem addrOf_of_eq {n : Nat} {a : Addr} (h : n = a.toNat) : addrOf n = a := h ▸ addrOf_toNat a

theorem packedFirst_eq (a b : Addr) :
    addrOf ((byteOf (a.toNat / 16)).toNat * 16 + (byteOf (a.toNat % 16 * 16 + b.toNat / 256)).toNat / 16) = a := by
  have ha := addr_lt a
  have hb := addr_lt b
  refine addrOf_of_eq ?_
  rw [toNat_byteOf, toNat_byteOf]
  omega

theorem packedSecond_eq (a b : Addr) :
    addrOf ((byteOf (a.toNat % 16 * 16 + b.toNat / 256)).toNat % 16 * 256 + (byteOf b.toNat).toNat) = b := by
  have ha := addr_lt a
  have hb := addr_lt b
  refine addrOf_of_eq ?_
  rw [toNat_byteOf, toNat_byteOf]
  omega

/-! ## The check (R170) -/

theorem withCheck_length (bs : List Byte) : (withCheck bs).length = bs.length + 2 := by
  rw [withCheck, List.length_append]
  rfl

theorem withCheck_take (bs : List Byte) : (withCheck bs).take ((withCheck bs).length - 2) = bs := by
  rw [withCheck_length, Nat.add_sub_cancel, withCheck]
  exact List.take_left' rfl

theorem withCheck_drop (bs : List Byte) :
    (withCheck bs).drop ((withCheck bs).length - 2) = be16 (crc16 bs).toNat := by
  rw [withCheck_length, Nat.add_sub_cancel, withCheck]
  exact List.drop_left' rfl

theorem bodyBytes_withCheck (bs : List Byte) : bodyBytes (withCheck bs) = bs := withCheck_take bs

theorem checkPasses_iff (bs : List Byte) : checkPasses bs = true ↔ ∃ d, bs = withCheck d := by
  rw [checkPasses, Bool.and_eq_true, decide_eq_true_eq, decide_eq_true_eq]
  constructor
  · rintro ⟨-, hcheck⟩
    refine ⟨bs.take (bs.length - 2), ?_⟩
    rw [withCheck, ← hcheck, List.take_append_drop]
  · rintro ⟨d, rfl⟩
    rw [withCheck_take, withCheck_drop, withCheck_length]
    exact ⟨Nat.le_add_left 2 _, rfl⟩

theorem checkPasses_withCheck (bs : List Byte) : checkPasses (withCheck bs) = true := (checkPasses_iff _).mpr ⟨bs, rfl⟩

theorem crcBit_eq (r : Word16) (b : Bool) :
    crcBit r b = (r <<< (1 : Nat)) ^^^ (if r.getLsbD 15 != b then 0x1021#16 else 0#16) := by
  unfold crcBit
  dsimp only
  split
  · rfl
  · exact (BitVec.xor_zero).symm

theorem crc16_concat (bs : List Byte) (b : Byte) : crc16 (bs ++ [b]) = (List.range 8).foldl
    (fun (r : Word16) j => (r <<< 1) ^^^ (if r.getLsbD 15 != b.getLsbD (7 - j) then 0x1021#16 else 0#16)) (crc16 bs) := by
  rw [crc16, List.foldl_append]
  show crcByte (crc16 bs) b = _
  simp only [crcByte, crcBit_eq]
  rfl

/-! ## Headers -/

theorem kind_ofCode (k : FrameKind) : FrameKind.ofCode k.code = some k := by cases k <;> rfl

/-- The fields of a header of a kind, each from its place. -/
def Header.readAs (kind : FrameKind) (bs : List Byte) : Header :=
  { kind := kind, full := decide (kind = .ack) && isYes (byteAt bs 0 % 16), dest := packedFirst bs 1,
    src := packedSecond bs 1, step := byteAt bs 4, cls := natBE ((bs.drop 5).take 2) / 8192,
    len := natBE ((bs.drop 5).take 2) % 2048, echo := byteAt bs 7 }

theorem parse_of_kind {bs : List Byte} {k : FrameKind} (hk : FrameKind.ofCode (byteAt bs 0 / 16) = some k) :
    Header.parse bs =
      if decide (bs.length = 10) && checkPasses bs && decide ((Header.readAs k bs).len ≤ 1100) &&
          (decide (k = .ack) == decide ((Header.readAs k bs).len = 0)) && stationAddress (Header.readAs k bs).src
      then some (Header.readAs k bs) else none := by
  rw [Header.parse, hk]
  rfl

theorem byteAt_encode_zero (h : Header) :
    byteAt h.encode 0 / 16 = h.kind.code ∧ isYes (byteAt h.encode 0 % 16) = h.full := by
  have hb : byteAt h.encode 0 = (h.kind.code * 16 + if h.full then 1 else 0) % 256 := rfl
  rw [hb]
  cases h.kind <;> cases h.full <;> exact ⟨rfl, rfl⟩

theorem readAs_encode {h : Header} (hstep : h.step < 256) (hcls : h.cls < 8) (hlen : h.len ≤ 1100) (hecho : h.echo < 256)
    (hfull : h.full = true → h.kind = .ack) : Header.readAs h.kind h.encode = h := by
  have hword : natBE ((h.encode.drop 5).take 2) = h.cls * 8192 + h.len := natBE_be16 (by omega)
  have hdest : packedFirst h.encode 1 = h.dest := packedFirst_eq h.dest h.src
  have hsrc : packedSecond h.encode 1 = h.src := packedSecond_eq h.dest h.src
  have hstep' : byteAt h.encode 4 = h.step := Nat.mod_eq_of_lt hstep
  have hecho' : byteAt h.encode 7 = h.echo := Nat.mod_eq_of_lt hecho
  have hfull' : (decide (h.kind = .ack) && h.full) = h.full := by
    cases hf : h.full with
    | false => exact Bool.and_false _
    | true => rw [hfull hf]; rfl
  rw [Header.readAs, (byteAt_encode_zero h).2, hdest, hsrc, hstep', hword, hecho', hfull',
    show (h.cls * 8192 + h.len) / 8192 = h.cls by omega, show (h.cls * 8192 + h.len) % 2048 = h.len by omega]

theorem parse_encode {h : Header} (hsrc : stationAddress h.src = true) (hstep : h.step < 256) (hcls : h.cls < 8)
    (hlen : h.len ≤ 1100) (hecho : h.echo < 256) (hack : h.kind = .ack ↔ h.len = 0)
    (hfull : h.full = true → h.kind = .ack) : Header.parse h.encode = some h := by
  have hread := readAs_encode hstep hcls hlen hecho hfull
  rw [parse_of_kind (k := h.kind) (by rw [(byteAt_encode_zero h).1, kind_ofCode]), hread]
  refine if_pos ?_
  rw [hsrc, decide_eq_true hlen,
    show decide (h.kind = .ack) = decide (h.len = 0) from decide_eq_decide.mpr hack]
  simp [checkPasses_withCheck, Header.encode, withCheck_length, packAddrs, be16]

/-! ## Bodies -/

theorem parseData_encode {d : DataBody} (horigin : stationAddress d.origin = true) (hdest : d.dest ≠ 0)
    (hcast : d.dest ≠ 0xFFF#12) (hhop : d.hop ≤ 15) (hlow : 1 ≤ d.payload.length) (hhigh : d.payload.length ≤ 1024) :
    parseData (withCheck d.encode) = some d := by
  have horigin' : packedFirst (withCheck d.encode) 0 = d.origin := packedFirst_eq d.origin d.dest
  have hdest' : packedSecond (withCheck d.encode) 0 = d.dest := packedSecond_eq d.origin d.dest
  have hseq : BitVec.ofNat 16 (natBE (((withCheck d.encode).drop 3).take 2)) = d.seq := by
    have hval : natBE (((withCheck d.encode).drop 3).take 2) = d.seq.toNat := natBE_be16 d.seq.isLt
    rw [hval, BitVec.ofNat_toNat, BitVec.setWidth_eq]
  have hhop' : min 15 (byteAt (withCheck d.encode) 5) = d.hop := by
    have hval : byteAt (withCheck d.encode) 5 = d.hop % 256 := rfl
    rw [hval]
    omega
  have hpayload : (bodyBytes (withCheck d.encode)).drop 6 = d.payload := by
    rw [bodyBytes_withCheck]
    rfl
  have hlen : (withCheck d.encode).length = d.payload.length + 8 := by
    rw [withCheck_length]
    simp [DataBody.encode, packAddrs, be16]
  rw [parseData]
  dsimp only
  rw [horigin', hdest', hseq, hhop', hpayload, hlen]
  exact if_pos ⟨by omega, by omega, horigin, hdest, hcast⟩

theorem mode_ofCode (m : DutyMode) : DutyMode.ofCode m.code = some m := by cases m <;> rfl

/-- One entry of an echo list. -/
def echoBytes (e : EchoEntry) : List Byte := be16 e.peer.toNat ++ [byteOf e.margin, 0]

theorem parseEchoes_encode (l : List EchoEntry) (rest : List Byte) (h : ∀ e ∈ l, e.margin < 256) :
    parseEchoes l.length ((l.map echoBytes).flatten ++ rest) = l := by
  induction l with
  | nil => rfl
  | cons e l ih =>
    obtain ⟨he, hl⟩ := List.forall_mem_cons.mp h
    have hpeer : addrOf (natBE (be16 e.peer.toNat)) = e.peer := by
      rw [natBE_be16 ((addr_lt _).trans (by decide)), addrOf_toNat]
    have hmargin : (byteOf e.margin).toNat = e.margin := Nat.mod_eq_of_lt he
    rw [List.map_cons, List.flatten_cons, List.append_assoc]
    show ({ peer := addrOf (natBE (be16 e.peer.toNat)), margin := (byteOf e.margin).toNat } : EchoEntry) ::
      parseEchoes l.length ((l.map echoBytes).flatten ++ rest) = e :: l
    rw [hpeer, hmargin, ih hl]

theorem echoList_length (l : List EchoEntry) : (l.map echoBytes).flatten.length = 4 * l.length := by
  induction l with
  | nil => rfl
  | cons e l ih =>
    rw [List.map_cons, List.flatten_cons, List.length_append, ih, List.length_cons]
    show 4 + 4 * l.length = _
    omega

theorem parseBeacon_encode {a : Advert} {l : List EchoEntry} (hcost : a.cost ≤ 4095) (hlow : 10 ≤ a.window)
    (hhigh : a.window ≤ 100) (hcount : l.length ≤ 12) (hl : ∀ e ∈ l, e.margin < 256) :
    parseBeacon (withCheck (beaconBody a l)) = some (a, l) := by
  have hmode : byteAt (withCheck (beaconBody a l)) 4 = a.mode.code := by
    show (byteOf a.mode.code).toNat = _
    cases a.mode <;> rfl
  have hcost' : natBE ((withCheck (beaconBody a l)).take 2) = a.cost := natBE_be16 (by omega)
  have hhop : natBE (((withCheck (beaconBody a l)).drop 2).take 2) = a.nextHop.toNat :=
    natBE_be16 ((addr_lt _).trans (by decide))
  have hwindow : natBE (((withCheck (beaconBody a l)).drop 5).take 2) = a.window := natBE_be16 (by omega)
  have hgateway : isYes (byteAt (withCheck (beaconBody a l)) 7) = a.gateway := isYes_flagByte a.gateway
  have hroom : isYes (byteAt (withCheck (beaconBody a l)) 8) = a.room := isYes_flagByte a.room
  have hn : byteAt (withCheck (beaconBody a l)) 9 = l.length := Nat.mod_eq_of_lt (show l.length < 256 by omega)
  have hdrop : (withCheck (beaconBody a l)).drop 10 =
      (l.map echoBytes).flatten ++ be16 (crc16 (beaconBody a l)).toNat := rfl
  have hlen : (withCheck (beaconBody a l)).length = 12 + 4 * l.length := by
    rw [← List.take_append_drop 10 (withCheck (beaconBody a l)), List.length_append, hdrop, List.length_append,
      echoList_length]
    show 10 + (4 * l.length + 2) = _
    omega
  rw [parseBeacon, hmode, mode_ofCode]
  dsimp only
  rw [hn, hwindow, hcost', hhop, hgateway, hroom, hdrop, parseEchoes_encode l _ hl, hlen, addrOf_toNat,
    min_eq_right hcost]
  exact if_pos ⟨rfl, hcount, hlow, hhigh⟩

theorem parseOffer_open (role : Role) (refuse refl : Bool) (n : Word16) {cap terms : Nat} (hcap : cap ≤ 7)
    (hterms : terms ≤ 3) : parseOffer (withCheck (openBytes role refuse n cap refl terms)) =
      some (.opening role refuse n cap refl terms) := by
  have hnonce : BitVec.ofNat 16 (natBE (((withCheck (openBytes role refuse n cap refl terms)).drop 3).take 2)) = n := by
    have hval : natBE (((withCheck (openBytes role refuse n cap refl terms)).drop 3).take 2) = n.toNat :=
      natBE_be16 n.isLt
    rw [hval, BitVec.ofNat_toNat, BitVec.setWidth_eq]
  have hrole : byteAt (withCheck (openBytes role refuse n cap refl terms)) 1 = role.code := by
    show (byteOf role.code).toNat = _
    cases role <;> rfl
  have hrefuse : isYes (byteAt (withCheck (openBytes role refuse n cap refl terms)) 2) = refuse := isYes_flagByte refuse
  have hcap' : byteAt (withCheck (openBytes role refuse n cap refl terms)) 5 = cap :=
    Nat.mod_eq_of_lt (show cap < 256 by omega)
  have hrefl : isYes (byteAt (withCheck (openBytes role refuse n cap refl terms)) 6) = refl := isYes_flagByte refl
  have hterms' : byteAt (withCheck (openBytes role refuse n cap refl terms)) 7 = terms :=
    Nat.mod_eq_of_lt (show terms < 256 by omega)
  have hlen : (withCheck (openBytes role refuse n cap refl terms)).length = 10 := withCheck_length _
  have hfirst : byteAt (withCheck (openBytes role refuse n cap refl terms)) 0 = 0 := rfl
  rw [parseOffer, if_pos hfirst, hnonce, hrole, hrefuse, hcap', hrefl, hterms', hlen,
    if_pos ⟨rfl, by cases role <;> decide, hterms, hcap⟩]
  cases role <;> rfl

theorem parseOffer_term {number kind v : Nat} (hlow : 1 ≤ number) (hhigh : number ≤ 3) (hkind : kind < 256)
    (hv : v < 65536) : parseOffer (withCheck (termBytes number kind v)) = some (.term number kind v) := by
  have hnumber : byteAt (withCheck (termBytes number kind v)) 0 = number :=
    Nat.mod_eq_of_lt (show number < 256 by omega)
  have hkind' : byteAt (withCheck (termBytes number kind v)) 1 = kind := Nat.mod_eq_of_lt hkind
  have hv' : natBE (((withCheck (termBytes number kind v)).drop 2).take 2) = v := natBE_be16 hv
  have hlen : (withCheck (termBytes number kind v)).length = 6 := withCheck_length _
  rw [parseOffer, hnumber, hkind', hv', hlen, if_neg (by omega), if_pos ⟨hhigh, rfl⟩]

theorem probeBody_parts (c : CheckRecord) {k : Nat} (hk : k < 4294967296) :
    natBE ((probeBody c k).take 4) = k ∧ (probeBody c k).drop 4 = patternBytes c k := by
  refine ⟨?_, rfl⟩
  show natBE (be32 k) = k
  exact natBE_be32 hk

/-- Settles O14: each format read back through its bytes. -/
theorem framesDecodeToWhatWasEncoded : Obligations.FramesDecodeToWhatWasEncoded := by
  refine ⟨fun h hsrc hstep hcls hlen hecho hack hfull =>
      ⟨withCheck_length _, parse_encode hsrc hstep hcls hlen hecho hack hfull⟩,
    fun d horigin hdest hcast hhop hlow hhigh => parseData_encode horigin hdest hcast hhop hlow hhigh,
    fun a l hcost hlow hhigh hcount hl => parseBeacon_encode hcost hlow hhigh hcount hl,
    fun role refuse refl n cap terms hcap hterms => parseOffer_open role refuse refl n hcap hterms,
    fun number kind v hlow hhigh hkind hv => parseOffer_term hlow hhigh hkind hv,
    fun c k hk => probeBody_parts c hk,
    fun bs => ⟨checkPasses_withCheck bs, bodyBytes_withCheck bs, withCheck_length bs⟩,
    fun bs => ⟨fun b => ⟨crc16_concat bs b, natBE_concat bs b⟩, rfl, rfl, rfl, checkPasses_iff bs⟩, ?_, fun a => ?_⟩
  · intro B flag
    refine ⟨fun h => ?_, fun d => rfl, fun a l => ?_, fun role refuse refl n cap terms => ?_, fun _ _ _ => rfl,
      fun c k => ?_⟩
    · intro kind
      have hkind : kind = h.kind.code := by
        show (match h.kind with | .beacon => 1 | .data => 2 | .ack => 3 | .offer => 4 | .probe => 5 | .reflect => 6) = _
        cases h.kind <;> rfl
      rw [hkind]
      rfl
    · obtain ⟨cost, hop, mode, window, gateway, room⟩ := a
      cases mode <;> rfl
    · cases role <;> rfl
    · rw [probeBody, be32_eq]
      rfl
  · rw [stationAddress]
    simp

end Sys2Proof.Machine

/-! The port: what a byte moves, the judgement of each command, SEND at its length field, the edges of select. -/

namespace Sys2Proof.Machine

theorem exec_portByteShifted {s : State} (h : s.inReset = false) (data : Byte) :
    exec (.portByteShifted data) s = .next (s.shiftByte data) := by
  show execPortByteShifted data s = _
  rw [execPortByteShifted, unlessReset_eq _ h]

theorem shiftByte_of_command {s : State} {p : Transaction} (hp : s.port = some p) (hph : p.phase = .command)
    (data : Byte) : s.shiftByte data = s.shiftCommand data p := by
  simp only [State.shiftByte, hp, hph]

theorem shiftByte_of_arguments {s : State} {p : Transaction} (hp : s.port = some p) (hph : p.phase = .arguments)
    (data : Byte) : s.shiftByte data = s.shiftArgument data p := by
  simp only [State.shiftByte, hp, hph]

theorem shiftByte_of_result {s : State} {p : Transaction} (hp : s.port = some p) (hph : p.phase = .result)
    (data : Byte) : s.shiftByte data = s.shiftResult p := by
  simp only [State.shiftByte, hp, hph]

theorem shiftByte_of_spent {s : State} {p : Transaction} (hp : s.port = some p) (hph : p.phase = .spent)
    (data : Byte) : s.shiftByte data = { s with pdo := some 0 } := by
  simp only [State.shiftByte, hp, hph, State.withPort]

theorem complete_iff (t : Transaction) : t.complete = true ↔ t.phase = .result ∨ t.phase = .spent := by
  simp only [Transaction.complete, Bool.or_eq_true, decide_eq_true_eq]

theorem argCount_of_not_mem {k : Byte} (h : k ∉ ([0x01, 0x02, 0x03, 0x04, 0x05, 0x10, 0x11, 0x12, 0x20, 0x21, 0x30,
    0x31, 0x40, 0x41, 0x42, 0x43] : List Byte)) : argCount k = none := by
  simp only [List.mem_cons, List.not_mem_nil, or_false, not_or] at h
  simp only [argCount, h, if_false, or_self]

/-! ### The judgement, per command (R160) -/

theorem judge_readSettings (s : State) (args : List Byte) :
    s.judge 0x02 args = if s.settings = none then .wrongState else .ok := by
  show (if s.settings.isNone then _ else _) = _
  simp only [Option.isNone_iff_eq_none]

theorem judge_takeFrame (s : State) (args : List Byte) : s.judge 0x11 args = if s.ring = [] then .empty else .ok := by
  show (if s.ring.isEmpty then _ else _) = _
  simp only [List.isEmpty_iff]

theorem judgeLoad_eq (s : State) (args : List Byte) :
    s.judgeLoad args = (if s.station ≠ .unconfigured then .wrongState
      else if settingsAcceptable args = false then .badArgument
      else if settingsHeld args = settingsTaken args then .ok else .clamped) := by
  simp only [State.judgeLoad, Bool.not_eq_eq_eq_not, Bool.not_true]

/-- With a count of 1 or more asked for, no report is returned exactly when none stands. -/
theorem judgeReports_eq (s : State) (args : List Byte) :
    s.judgeReports args = (if byteAt args 0 < 1 ∨ 32 < byteAt args 0 then .badArgument
      else if s.reports = [] ∧ s.overrun = false then .empty else .ok) := by
  unfold State.judgeReports
  split
  · rfl
  · next hn =>
    have hcount : s.reportCount args = 0 ↔ s.reports = [] := by
      rw [State.reportCount, ← List.length_eq_zero_iff]
      omega
    simp only [hcount]

theorem judgeReseed_empty {s : State} {args : List Byte} (hlow : byteAt args 0 ≤ 23)
    (hr : s.rec? (byteAt args 0) = none) : s.judgeReseed args = .noSuch := by
  rw [State.judgeReseed, if_neg (by omega), hr]

theorem judgeReseed_held {s : State} {args : List Byte} {r : Record} (hlow : byteAt args 0 ≤ 23)
    (hr : s.rec? (byteAt args 0) = some r) :
    s.judgeReseed args = if r.link = .heard ∨ r.link = .up then .ok else .wrongState := by
  rw [State.judgeReseed, if_neg (by omega), hr]

theorem judgeForget_empty {s : State} {args : List Byte} (hlow : byteAt args 0 ≤ 23)
    (hr : s.rec? (byteAt args 0) = none) : s.judgeForget args = .noSuch := by
  rw [State.judgeForget, if_neg (by omega), hr]
  rfl

theorem judgeForget_held {s : State} {args : List Byte} {r : Record} (hlow : byteAt args 0 ≤ 23)
    (hr : s.rec? (byteAt args 0) = some r) : s.judgeForget args = .ok := by
  rw [State.judgeForget, if_neg (by omega), hr, if_neg (by simp)]

theorem running_iff (c : Checker) : c.running = true ↔ c.state ≠ .idle := decide_eq_true_iff

theorem judgeCheck_bad {s : State} {args : List Byte} (h : checkArgsOk args = false) :
    s.judgeCheck args = .badArgument := by
  rw [State.judgeCheck, h]
  rfl

theorem judgeCheck_busy {s : State} {args : List Byte} (h : checkArgsOk args = true) (hc : s.check.state ≠ .idle) :
    s.judgeCheck args = .busy := by
  rw [State.judgeCheck, h, if_neg (by decide), if_pos ((running_iff _).mpr hc)]

theorem judgeCheck_empty {s : State} {args : List Byte} (h : checkArgsOk args = true) (hc : s.check.state = .idle)
    (hr : s.rec? (byteAt args 0) = none) : s.judgeCheck args = .noSuch := by
  rw [State.judgeCheck, h, if_neg (by decide), if_neg (by simpa [running_iff] using hc), hr]

theorem judgeCheck_unfit {s : State} {args : List Byte} {r : Record} (h : checkArgsOk args = true)
    (hc : s.check.state = .idle) (hr : s.rec? (byteAt args 0) = some r)
    (hu : r.link ≠ .up ∨ r.terms = none ∨ ∃ m, r.terms = some m ∧ m.peerReflects = false) :
    s.judgeCheck args = .wrongState := by
  rw [State.judgeCheck, h, if_neg (by decide), if_neg (by simpa [running_iff] using hc), hr]
  dsimp only
  split
  · next m hm =>
    rw [if_pos]
    rcases hu with hl | hn | ⟨m', hm', hp⟩
    · exact .inl hl
    · rw [hn] at hm
      cases hm
    · rw [hm] at hm'
      cases hm'
      exact .inr hp
  · rfl

theorem judgeCheck_fit {s : State} {args : List Byte} {r : Record} {m : Terms} (h : checkArgsOk args = true)
    (hc : s.check.state = .idle) (hr : s.rec? (byteAt args 0) = some r) (hl : r.link = .up) (hm : r.terms = some m)
    (hp : m.peerReflects = true) :
    s.judgeCheck args = if m.maxPayload < arg16 args 2 then .badArgument else .ok := by
  rw [State.judgeCheck, h, if_neg (by decide), if_neg (by simpa [running_iff] using hc), hr]
  simp only [hm, hl, hp]
  rfl

theorem judge_of_code {s : State} {args : List Byte} {k : Byte} (hk : k ∈ ([0x05, 0x21, 0x41, 0x43] : List Byte)) :
    s.judge k args = .ok := by
  simp only [List.mem_cons, List.not_mem_nil, or_false] at hk
  obtain rfl | rfl | rfl | rfl := hk <;> rfl

/-- Settles O16: each phase has its equation for a shifted byte, and each command its judgement. -/
theorem portBytesMoveTheTransaction : Obligations.PortBytesMoveTheTransaction := by
  unfold Obligations.PortBytesMoveTheTransaction
  refine ⟨fun s data h hp => ?_, fun s p data h hp hph => ?_, fun s p data h hp hph hcode => ?_,
    fun s p data h hp => ?_, fun t => ?_, ?_, fun s args => ?_⟩
  · rw [exec_portByteShifted h, shiftByte_of_closed data hp]
  · rw [exec_portByteShifted h, shiftByte_of_command hp hph]
    refine ⟨fun n hn => ?_, fun hn => ?_, fun hn => ?_⟩ <;> simp only [State.shiftCommand, hn] <;> rfl
  · rw [exec_portByteShifted h, shiftByte_of_arguments hp hph]
    have hpay : (decide (p.code = 0x10) && p.status.isSome) = false := by rw [decide_eq_false hcode]; rfl
    refine ⟨fun hd => ?_, fun hd => ?_⟩
    · simp only [State.shiftArgument, hpay, hd, if_true]
      rfl
    · simp only [State.shiftArgument, Nat.not_lt.mpr hd, hcode]
      rfl
  · rw [exec_portByteShifted h]
    refine ⟨fun hph ho => ?_, fun b rest hph ho hout => ?_, fun hph ho hout hlt => ?_, fun hph => ?_⟩
    · simp only [shiftByte_of_result hp hph, State.shiftResult, ho]
      rfl
    · simp only [shiftByte_of_result hp hph, State.shiftResult, ho, hout]
      rfl
    · simp only [shiftByte_of_result hp hph, State.shiftResult, ho, hout, hlt, if_true]
      rfl
    · rw [shiftByte_of_spent hp hph]
  · refine ⟨complete_iff t, fun ho ht => ?_, fun h => ?_⟩
    · rw [Transaction.advance, if_pos]
      simpa [ho] using ht
    · rw [Transaction.advance, if_neg]
      simpa [-not_and, not_and_or] using h
  · exact ⟨rfl, rfl, rfl, rfl, by decide, by decide, fun k hk => argCount_of_not_mem hk, by decide⟩
  · refine ⟨judgeLoad_eq s args, judge_readSettings s args, rfl, rfl, judge_takeFrame s args, judgeReports_eq s args,
      rfl, rfl, fun k hk => judge_of_code hk, fun hs => ⟨if_pos hs, if_pos hs⟩,
      fun hs hr => ⟨judgeReseed_empty hs hr, judgeForget_empty hs hr⟩,
      fun r hs hr => ⟨judgeForget_held hs hr, judgeReseed_held hs hr⟩, judgeCheck_bad, judgeCheck_busy,
      fun h hc => ⟨judgeCheck_empty h hc, fun r hr => ⟨judgeCheck_unfit h hc hr, fun m => judgeCheck_fit h hc hr⟩⟩⟩

/-! ### SEND at its length field (R121, R163) -/

theorem hostShare_eq (s : State) : s.hostShare = (s.fwd.filter fun e => e.tag.isSome).length := List.countP_eq_length_filter

theorem portHolds_iff (s : State) : s.portHolds = true ↔ ∃ p, s.port = some p ∧ p.sendHeld = true := by
  unfold State.portHolds
  cases s.port <;> simp [holdsBuffer]

theorem refusesSend_iff (s : State) :
    s.refusesSend = true ↔ s.free = 0 ∨ 40 ≤ s.fwd.length ∨ 16 ≤ (s.fwd.filter fun e => e.tag.isSome).length := by
  simp only [State.refusesSend, Bool.or_eq_true, decide_eq_true_eq, hostShare_eq, or_assoc]

theorem badDestination_iff (s : State) (dest : Nat) :
    s.badDestination dest = true ↔
      dest = 0 ∨ 0xFFF ≤ dest ∨ dest = s.cfg.address.toNat ∨ dest = 0xFFE ∧ s.cfg.gateway = true := by
  simp only [State.badDestination, Bool.or_eq_true, Bool.and_eq_true, decide_eq_true_eq, or_assoc]

theorem sendExpects_eq_zero_iff (args : List Byte) :
    sendExpects args = 0 ↔ arg16 args 4 = 0 ∨ 1024 < arg16 args 4 := by
  unfold sendExpects sendLength
  split <;> omega

/-- SEND's tests in order (R163): the station, the destination and the length, the room. -/
theorem judgeSend_eq (s : State) (args : List Byte) :
    s.judgeSend args =
      if s.station ≠ .onAir then .wrongState
      else if s.badDestination (arg16 args 0) = true ∨ sendExpects args = 0 then .badArgument
      else if s.refusesSend = true then .full else .ok := by
  simp only [State.judgeSend, Bool.or_eq_true, decide_eq_true_eq]

/-- A SEND without payload to come is not judged OK. -/
theorem judgeSend_ne_ok {s : State} {args : List Byte} (h : sendExpects args = 0) : s.judgeSend args ≠ .ok := by
  rw [judgeSend_eq]
  split
  · decide
  · rw [if_pos (.inr h)]
    decide

theorem arg16_eq (args : List Byte) (i : Nat) (h : i + 1 < args.length) :
    arg16 args i = byteAt args i + 256 * byteAt args (i + 1) := by
  rw [arg16, List.drop_eq_getElem_cons (by omega), List.drop_eq_getElem_cons h]
  simp only [List.take_succ_cons, List.take_zero, natLE, byteAt, List.getD_eq_getElem _ _ h,
    List.getD_eq_getElem _ _ (Nat.lt_of_succ_lt h), Nat.mul_zero, Nat.add_zero]

section SendArguments

variable {s : State} {p : Transaction} {data : Byte}

theorem shiftArgument_send_early (hst : p.status = none) (hd : 1 < p.due) :
    s.shiftArgument data p =
      { s with port := some { p with args := p.args ++ [data], due := p.due - 1 }, pdo := some 0 } := by
  simp only [State.shiftArgument, hst, hd, if_true]
  simp only [Option.isSome_none, Bool.and_false]
  rfl

theorem shiftArgument_send_length (hcode : p.code = 0x10) (hst : p.status = none) (hd : p.due ≤ 1) :
    s.shiftArgument data p = s.sendLengthComplete { p with args := p.args ++ [data], due := p.due - 1 } := by
  simp only [State.shiftArgument, hst, Nat.not_lt.mpr hd, hcode, if_false, if_true]
  rfl

theorem shiftArgument_payload {st : Status} (hcode : p.code = 0x10) (hst : p.status = some st) :
    s.shiftArgument data p =
      if 1 < p.due then
        { s with port := some { p with args := if p.sendHeld then p.args ++ [data] else p.args, due := p.due - 1 },
                 pdo := some 0 }
      else
        { s with port := some (State.opensResult s { p with args := if p.sendHeld then p.args ++ [data] else p.args } st),
                 pdo := some 0 } := by
  have hargs : (if !p.sendHeld then p.args else p.args ++ [data]) = if p.sendHeld then p.args ++ [data] else p.args := by
    cases p.sendHeld <;> rfl
  simp only [State.shiftArgument, hst, hcode, decide_true, Option.isSome_some, Bool.and_self, Bool.true_and, hargs,
    if_true]
  rfl

end SendArguments

/-- Settles O18. -/
theorem sendIsJudgedAtTheLengthField : Obligations.SendIsJudgedAtTheLengthField := by
  unfold Obligations.SendIsJudgedAtTheLengthField
  refine ⟨fun s p data h hp hph hcode => ?_, fun s args => ?_, fun args => ⟨rfl, fun i => rfl, arg16_eq args⟩,
    fun s => ⟨portHolds_iff s, hostShare_eq s⟩⟩
  · rw [exec_portByteShifted h, shiftByte_of_arguments hp hph]
    refine ⟨fun hst hd => ?_, fun hst hd hok => ?_, fun st hst hd hj hne hx => ?_, fun st hst hd hj hx => ?_,
      fun st hst hd => ?_, fun st hst hd => ?_⟩
    · rw [shiftArgument_send_early hst hd]
    · have hx : sendExpects (p.args ++ [data]) ≠ 0 := fun hx => judgeSend_ne_ok hx hok
      rw [shiftArgument_send_length hcode hst hd]
      simp only [State.sendLengthComplete, hok, hx, if_false, if_true]
      rfl
    · rw [shiftArgument_send_length hcode hst hd]
      simp only [State.sendLengthComplete, hj, hne, Nat.ne_of_gt hx, if_false]
      rfl
    · have hne : st ≠ .ok := fun he => judgeSend_ne_ok hx (hj.trans he)
      refine ⟨hne, ?_⟩
      rw [shiftArgument_send_length hcode hst hd]
      simp only [State.sendLengthComplete, hj, hne, hx, if_false, if_true]
      rfl
    · rw [shiftArgument_payload hcode hst, if_pos hd]
    · rw [shiftArgument_payload hcode hst, if_neg (Nat.not_lt.mpr hd)]
  · intro dest refusedDest refusedLength refusedPool
    have hdest : s.badDestination dest = true ↔ refusedDest := badDestination_iff s dest
    have hlen : sendExpects args = 0 ↔ refusedLength := sendExpects_eq_zero_iff args
    have hpool : s.refusesSend = true ↔ refusedPool := refusesSend_iff s
    clear_value refusedDest refusedLength refusedPool
    by_cases hst : s.station = .onAir
    · by_cases ha : refusedDest ∨ refusedLength
      · have hj : s.judgeSend args = .badArgument := by
          rw [judgeSend_eq, if_neg (not_not_intro hst), if_pos ((or_congr hdest hlen).mpr ha)]
        simp only [hj, hst]
        tauto
      · by_cases hp : refusedPool
        · have hj : s.judgeSend args = .full := by
            rw [judgeSend_eq, if_neg (not_not_intro hst), if_neg (fun hc => ha ((or_congr hdest hlen).mp hc)),
              if_pos (hpool.mpr hp)]
          simp only [hj, hst]
          tauto
        · have hj : s.judgeSend args = .ok := by
            rw [judgeSend_eq, if_neg (not_not_intro hst), if_neg (fun hc => ha ((or_congr hdest hlen).mp hc)),
              if_neg (fun hc => hp (hpool.mp hc))]
          simp only [hj, hst]
          tauto
    · have hj : s.judgeSend args = .wrongState := by rw [judgeSend_eq, if_pos hst]
      simp only [hj, hst]
      tauto

/-! ### The edges of select that take no command (R159, R160) -/

theorem returnBuffer_of_request {s : State} (hq : s.rx.request = true) (hh : s.rx.holds = false) :
    s.returnBuffer = { s with rx := { s.rx with holds := true, request := false } } := by
  simp only [State.returnBuffer, hq, hh]
  rfl

theorem returnBuffer_of_none {s : State} (h : s.rx.request = false ∨ s.rx.holds = true) :
    s.returnBuffer = { s with free := s.free + 1 } := by
  rw [State.returnBuffer, if_neg]
  rcases h with h | h <;> simp [h]

/-- A rise before the arguments are complete: the port closes, with the buffer of a SEND given back. -/
theorem cutShort_ends {s : State} {p : Transaction} (h : s.inReset = false) (hp : s.port = some p)
    (hc : p.complete = false) :
    ∃ t, exec .transactionCutShort s = .next t ∧
      State.Ends (if p.sendHeld then s.closePort.returnBuffer else s.closePort) t := by
  show ∃ t, execTransactionCutShort s = _ ∧ _
  refine unlessReset_ends h ?_
  simp only [hp, hc]
  rfl

/-- Settles O19. -/
theorem selectEdgesThatTakeNoCommand : Obligations.SelectEdgesThatTakeNoCommand := by
  unfold Obligations.SelectEdgesThatTakeNoCommand
  refine ⟨fun s h hp => ⟨.fresh, ?_, rfl, rfl, rfl, rfl, rfl, rfl, rfl, rfl⟩,
    fun s p h hp => ⟨fun hc hsend => ?_, fun hc hsend hreq hholds => ?_, fun hc hsend hrx => ?_, fun hc hcount => ?_⟩,
    fun s => rfl⟩
  · show execTransactionBegun s = _
    rw [execTransactionBegun, unlessReset_eq _ h, hp]
    rfl
  · have he := cutShort_ends h hp hc
    rwa [if_neg (by simp [hsend])] at he
  · have he := cutShort_ends h hp hc
    rwa [if_pos hsend, returnBuffer_of_request (s := s.closePort) hreq hholds] at he
  · have he := cutShort_ends h hp hc
    rwa [if_pos hsend, returnBuffer_of_none (s := s.closePort) hrx] at he
  · show execUnknownCommand s = _
    rw [execUnknownCommand, unlessReset_eq _ h]
    simp only [hp, hc, hcount]
    rfl

end Sys2Proof.Machine

/-! What a result holds (R159, R160, R163 to R166, R156, R171), and the reading commands. -/

namespace Sys2Proof.Machine

/-! ## Little-endian numbers -/

theorem natLE_le16 (n : Nat) : natLE (le16 n) = n % 65536 := by
  simp only [le16, natLE, toNat_byteOf]
  omega

theorem le32_eq (n : Nat) : le32 n = [byteOf n, byteOf (n / 256), byteOf (n / 65536), byteOf (n / 16777216)] := by
  simp only [le32, le16, List.cons_append, List.nil_append, Nat.div_div_eq_div_mul]

theorem natLE_le32 (n : Nat) : natLE (le32 n) = n % 4294967296 := by
  simp only [le32_eq, natLE, toNat_byteOf]
  omega

/-! ## The codes as bytes -/

theorem byteOf_modeCode (x : DutyMode) : byteOf x.code = match x with | .active => 0 | .quiet => 1 | .doze => 2 := by
  cases x <;> rfl

theorem byteOf_counterModeCode (x : CounterMode) : byteOf x.code = match x with | .saturate => 0 | .wrap => 1 := by
  cases x <;> rfl

theorem byteOf_checkCauseCode (x : CheckCause) :
    byteOf x.code = match x with
      | .none => 0 | .countDone => 1 | .stopped => 2 | .saturated => 3 | .linkLost => 4 | .stationStopped => 5 := by
  cases x <;> rfl

theorem byteOf_linkCode (x : LinkState) :
    byteOf x.code = match x with | .heard => 1 | .offering => 2 | .up => 3 | .lost => 4 := by
  cases x <;> rfl

theorem byteOf_fadeCode (x : FadeState) :
    byteOf x.code = match x with | .clear => 0 | .entering => 1 | .faded => 2 | .leaving => 3 := by
  cases x <;> rfl

theorem byteOf_trimCode (x : TrimState) :
    byteOf x.code = match x with | .idle => 0 | .settling => 1 | .holdoff => 2 := by
  cases x <;> rfl

theorem byteOf_trimOutcomeCode (x : TrimOutcome) :
    byteOf x.code = match x with | .set => 0 | .weak => 1 | .strong => 2 | .drift => 3 | .silent => 4 := by
  cases x <;> rfl

theorem byteOf_roleCode (x : Role) : byteOf x.code = match x with | .proposer => 0 | .answerer => 1 := by
  cases x <;> rfl

theorem byteOf_phaseCode (x : Phase) : byteOf x.code = match x with | .sendingPages => 0 | .awaitingPages => 1 := by
  cases x <;> rfl

theorem byteOf_linkEventCode (x : LinkEvent) :
    byteOf x.code = match x with | .admitted => 0 | .heard => 1 | .up => 2 | .lost => 3 | .removed => 4 := by
  cases x <;> rfl

theorem byteOf_linkCauseCode (x : LinkCause) :
    byteOf x.code = match x with
      | .none => 0 | .refused => 1 | .timeout => 2 | .tie => 3 | .silent => 4 | .noAck => 5 | .notEchoed => 6
      | .forgotten => 7 | .aged => 8 | .evicted => 9 := by
  cases x <;> rfl

theorem byteOf_fadeClassCode (x : FadeClass) :
    byteOf x.code = match x with
      | .blip => 0 | .pass => 1 | .shadowBegun => 2 | .shadowEnded => 3 | .reseeded => 4 := by
  cases x <;> rfl

theorem byteOf_fadeCauseCode (x : FadeCause) :
    byteOf x.code = match x with | .none => 0 | .settle => 1 | .host => 2 := by
  cases x <;> rfl

theorem byteOf_dropCauseCode (x : DropCause) :
    byteOf x.code = match x with | .noAck => 0 | .fullAtPeer => 1 | .noPath => 2 | .tooLong => 3 | .stopped => 4 := by
  cases x <;> rfl

theorem interval_eq (m : DutyMode) : m.interval = match m with | .active => 100 | .quiet => 400 | .doze => 1600 := by
  cases m <;> rfl

/-! ## The items -/

theorem resultItems_refused (s : State) (code : Byte) (args : List Byte) {st : Status} (h : st ≠ .ok) :
    s.resultItems code args st = 0 := if_pos h

@[simp] theorem le16_length (n : Nat) : (le16 n).length = 2 := rfl

@[simp] theorem le32_length (n : Nat) : (le32 n).length = 4 := rfl

/-- The parts of a row that a record may lack (the start of a fade, the echo, the terms, the exchange) take as many
bytes where it lacks them. -/
theorem row_length (now : Nat) (r : Record) : (r.row now).length = 58 := by
  unfold Record.row
  simp only [leInt16, List.length_append, List.length_cons, List.length_nil, le16_length, le32_length]
  cases r.fade.start <;> cases r.trim.echo <;> cases r.terms <;> cases r.exch <;>
    simp only [List.length_append, List.length_cons, List.length_nil, le16_length, le32_length]

theorem row_bytes (now : Nat) (r : Record) :
    let word (x : Int) : List Byte := le16 (x % 65536).toNat
    let flag (b : Bool) : Byte := if b then 1 else 0
    r.row now =
      ([match r.link with | .heard => 1 | .offering => 2 | .up => 3 | .lost => 4] : List Byte) ++ le16 r.peer.toNat ++
      le32 (min 4294967295 (now - r.lastHeard)) ++ le16 (r.silence / 1000) ++
      le16 r.advert.cost ++ le16 r.advert.nextHop.toNat ++
      ([match r.advert.mode with | .active => 0 | .quiet => 1 | .doze => 2, byteOf r.advert.window,
        flag r.advert.gateway, flag r.advert.room] : List Byte) ++ word r.F ++ word r.L ++
      ([match r.fade.state with | .clear => 0 | .entering => 1 | .faded => 2 | .leaving => 3, byteOf r.fade.count,
        byteOf r.fade.maxDef, flag r.fade.shadow] : List Byte) ++
      (match r.fade.start with | some b => le32 (now - b) | none => [0xFF, 0xFF, 0xFF, 0xFF]) ++
      (match r.trim.echo with | some e => [byteOf e, 1] | none => [0, 0]) ++
      ([byteOf r.notEchoed, byteOf r.trim.step,
        match r.trim.state with | .idle => 0 | .settling => 1 | .holdoff => 2, byteOf r.trim.count,
        match r.trim.last with
        | none => 0xFF | some .set => 0 | some .weak => 1 | some .strong => 2 | some .drift => 3 | some .silent => 4,
        flag r.trim.clamped] : List Byte) ++
      (match r.terms with
       | some m => [byteOf m.rateCeiling] ++ le16 m.maxPayload ++ le16 m.pace ++ [flag m.peerReflects]
       | none => [0xFF, 0, 0, 0, 0, 0]) ++
      [byteOf r.trim.rUsed] ++ le16 r.linkCost ++ le16 r.pathCost ++ [flag r.eligible] ++
      (match r.exch with
       | some x => [match x.role with | .proposer => 0 | .answerer => 1,
                    match x.phase with | .sendingPages => 0 | .awaitingPages => 1]
       | none => [0xFF, 0xFF]) ++
      [byteOf r.failStreak] ++ le16 r.hopDrops ++ le16 r.loopDrops ++ le16 r.pathDrops := by
  intro word flag
  unfold Record.row
  simp only [byteOf_linkCode, byteOf_modeCode, byteOf_fadeCode, byteOf_trimCode, byteOf_roleCode,
    byteOf_phaseCode, List.append_assoc, List.cons_append, List.nil_append]
  cases r.trim.last with
  | none => rfl
  | some o => cases o <;> rfl

/-! ## Reports (R167, 12_formats) -/

theorem body_encode_length_le (b : ReportBody) : b.encode.length ≤ 20 := by
  cases b <;> exact Nat.le_of_ble_eq_true rfl

/-- A report's kind, key address and slot, then its body, then 0 up to 24 bytes. -/
theorem encode_eq (r : Report) :
    r.encode = ([byteOf r.body.kind.code] ++ le16 r.addr.toNat ++
      [match r.slot with | some i => byteOf i | none => 0xFF]) ++ r.body.encode ++
      List.replicate (20 - r.body.encode.length) 0 := by
  have hlen : 24 - ([byteOf r.body.kind.code] ++ le16 r.addr.toNat ++ [slotByte r.slot] ++ r.body.encode).length =
      20 - r.body.encode.length := by
    simp only [List.length_append, List.length_cons, List.length_nil, le16_length]
    omega
  rw [Report.encode, padTo, hlen]
  cases r.slot <;> rfl

theorem encode_length (r : Report) : r.encode.length = 24 := by
  have hle := body_encode_length_le r.body
  rw [encode_eq]
  simp only [List.length_append, List.length_cons, List.length_nil, le16_length, List.length_replicate]
  omega

/-! ## The settings form (R162) -/

/-- Each value in the width of its field. -/
theorem form_fields_length (fs : List FieldSpec) (vs : List Nat) (hlen : vs.length = fs.length)
    (hw : ∀ f ∈ fs, f.width = 1 ∨ f.width = 2) :
    (List.zipWith (fun f v => leField f.width v) fs vs).flatten.length = (fs.map FieldSpec.width).sum := by
  induction fs generalizing vs with
  | nil => rfl
  | cons f fs ih =>
    obtain ⟨v, vs, rfl⟩ := List.exists_cons_of_length_eq_add_one hlen
    have hf : (leField f.width v).length = f.width := by
      rcases hw f (by simp) with h | h <;> rw [h] <;> rfl
    rw [List.zipWith_cons_cons, List.flatten_cons, List.length_append, hf,
      ih vs (by simpa using hlen) fun g hg => hw g (by simp [hg])]
    rfl

theorem form_length (c : Settings) : c.form.length = 60 := by
  rw [Settings.form, List.length_append, form_fields_length fieldSpecs c.values rfl fun f hf => (fieldSpecs_width f hf).1]
  rfl

/-- The form reads back as the values held, where each fits its field. -/
theorem settingsGiven_form (c : Settings)
    (h : ∀ (i : Nat) (f : FieldSpec) (v : Nat), fieldSpecs[i]? = some f → c.values[i]? = some v → v < 256 ^ f.width) :
    settingsGiven c.form = c.values.map some := by
  have hmask : natLE [0xFF, 0xFF, 0xFF, 0xFF, 0xFF, 0x01] = 2 ^ 41 - 1 := rfl
  rw [settingsGiven, Settings.form, List.take_left' (by rfl), List.drop_left' (by rfl), hmask]
  refine readFields_form fieldSpecs c.values 0 _ rfl (fun i hi => ?_) fun p hp => ?_
  · rw [Nat.testBit_two_pow_sub_one]
    exact decide_eq_true (by rw [Nat.zero_add]; exact hi)
  · obtain ⟨i, hi, hp⟩ := List.mem_iff_getElem.mp hp
    rw [List.getElem_zip] at hp
    subst hp
    exact ⟨(fieldSpecs_width _ (List.getElem_mem _)).1,
      h i _ _ (List.getElem?_eq_getElem _) (List.getElem?_eq_getElem _)⟩

/-- Settles O17: each item is its definition with the codes written out. -/
theorem resultItemsCarryTheirBytes : Obligations.ResultItemsCarryTheirBytes := by
  unfold Obligations.ResultItemsCarryTheirBytes
  refine ⟨fun s code args st => ⟨resultItems_refused s code args, fun h => ?_, fun h => ?_, fun h => ?_, fun h => ?_⟩,
    fun n => ⟨natLE_le16 n, rfl, natLE_le32 n, rfl, rfl, rfl, le32_eq n⟩, fun s p k => ?_,
    fun now r => ⟨row_bytes now r, row_length now r⟩,
    fun c h => ⟨form_length c, rfl, settingsGiven_form c h⟩, fun r => ?_⟩
  · obtain rfl | rfl | rfl | rfl | rfl := h <;> rfl
  · rw [h]; rfl
  · rw [h]; rfl
  · obtain rfl | rfl | rfl | rfl | rfl | rfl | rfl | rfl | rfl := h <;> rfl
  · refine ⟨fun hp c hc => ?_, fun hp => ?_, fun hp d rest hd => ?_, fun hp => ⟨?_, fun r hr => ?_⟩, fun hp => ?_,
      fun hp => ?_⟩
    · rw [State.resultItem, hp, if_pos rfl, hc]
    · rw [State.resultItem, hp]
      rfl
    · rw [State.resultItem, hp, hd]
      rfl
    · rw [State.resultItem, hp]
      rfl
    · rw [State.resultItem, hp]
      show (match s.reports[k]? with | some r => r.encode | none => []) = _
      rw [hr]
    · rw [State.resultItem, hp]
      show s.stationStatus = _
      rw [State.stationStatus, hostShare_eq]
      simp only [List.append_assoc]
      cases s.nextHop <;> cases s.latest <;> rfl
    · rw [State.resultItem, hp]
      show s.check.readout = _
      rw [Checker.readout, byteOf_counterModeCode, byteOf_checkCauseCode]
      simp only [Counters.encode, List.append_assoc]
      rfl
  · refine ⟨encode_length r, fun c hb => ?_, fun ev c l hb => ?_, fun k c t d F L hb => ?_,
      fun o p cl e X n u hb => ?_, fun h c h' c' hb => ?_, fun n tag c q hb => ?_, fun c m n v hb => ?_,
      fun m m' w hb => ?_⟩
    · rw [encode_eq, hb]
      cases c <;> rfl
    · rw [encode_eq, hb]
      simp only [ReportBody.encode, byteOf_linkEventCode, byteOf_linkCauseCode]
      rcases l with _ | l
      · rfl
      · cases l <;> rfl
    · rw [encode_eq, hb]
      simp only [ReportBody.encode, byteOf_fadeClassCode, byteOf_fadeCauseCode, List.append_assoc]
      rfl
    · rw [encode_eq, hb]
      simp only [ReportBody.encode, byteOf_trimOutcomeCode, List.append_assoc]
      rfl
    · rw [encode_eq, hb]
      simp only [ReportBody.encode, List.append_assoc]
      rfl
    · rw [encode_eq, hb]
      simp only [ReportBody.encode, byteOf_dropCauseCode, List.append_assoc]
      rfl
    · rw [encode_eq, hb]
      simp only [ReportBody.encode, Counters.encode, byteOf_checkCauseCode, List.append_assoc]
      rfl
    · rw [encode_eq, hb]
      simp only [ReportBody.encode, byteOf_modeCode, interval_eq, List.append_assoc]
      rfl

/-! ## The reading commands (R156, R162, R166) -/

/-- A row stays in the aligned group of 8 of the start slot. -/
theorem rowSlot_spec (start k : Nat) : rowSlot start k / 8 = start / 8 ∧ rowSlot start k % 8 = (start + k) % 8 := by
  unfold rowSlot
  omega

theorem resultItem_row {s : State} {p : Transaction} (k : Nat) (hp : p.code = 0x20) :
    s.resultItem p k = slotRow s.nowMs (s.rec? (rowSlot (byteAt p.args 0) k)) := by
  rw [State.resultItem, hp]
  rfl

theorem judge_readNeighbours (s : State) (args : List Byte) :
    s.judge 0x20 args = if byteAt args 0 ≤ 23 ∧ 1 ≤ byteAt args 1 ∧ byteAt args 1 ≤ 8 then .ok else .badArgument := by
  show (if 23 < byteAt args 0 ∨ byteAt args 1 < 1 ∨ 8 < byteAt args 1 then Status.badArgument else .ok) = _
  by_cases h : byteAt args 0 ≤ 23 ∧ 1 ≤ byteAt args 1 ∧ byteAt args 1 ≤ 8
  · rw [if_pos h, if_neg (by omega)]
  · rw [if_neg h, if_pos (by omega)]

/-- Settles O20: a reading command's effect is its judgement. -/
theorem readingCommandsChangeNothing : Obligations.ReadingCommandsChangeNothing := by
  unfold Obligations.ReadingCommandsChangeNothing
  refine ⟨fun s p => ⟨fun h => ?_, fun h => ?_, fun h => ?_, fun h => ?_⟩, fun s p k hp hstart hk => ?_⟩
  · exact takeCommand_status h rfl
  · rw [← judge_readNeighbours s]
    exact takeCommand_status h rfl
  · exact takeCommand_status h rfl
  · exact takeCommand_status h rfl
  · obtain ⟨hgroup, hplace⟩ := rowSlot_spec (byteAt p.args 0) k
    have hslot : rowSlot (byteAt p.args 0) k < 24 := by omega
    refine ⟨_, hgroup, hplace, hslot, fun r hr => ⟨?_, row_length _ _⟩, fun hr => ?_⟩ <;>
    · rw [resultItem_row k hp, hr]
      rfl

end Sys2Proof.Machine

/-! Host commands at the rise of select (R160): the settings and the station, SEND, the TAKE commands, the check. -/

namespace Sys2Proof.Machine

/-! ## LOAD SETTINGS and START (R139, R161, R162) -/

/-- A station that makes no choice and is not transmitting is not transmitting once the command has ended. -/
theorem State.Ends.transmitting {a b : State} (h : a.Ends b) (hc : a.chooses = false) (hs : a.tx.state ≠ .sending)
    (ha : a.tx.ackAir = none) : b.transmitting = false := by
  have htx : b.tx.state ≠ .sending ∧ b.tx.ackAir = none := by
    cases hst : a.tx.state with
    | idle =>
      rcases h.idle hst with he | ⟨hn, -⟩
      · rw [he]
        exact ⟨hs, ha⟩
      · rw [hc] at hn
        cases hn
    | defer =>
      rw [h.defer hst]
      exact ⟨hs, ha⟩
    | backoff =>
      rw [h.backoff hst]
      split
      · exact ⟨hs, ha⟩
      · exact ⟨(by simp), ha⟩
    | sending => exact absurd hst hs
    | awaitAck =>
      rw [h.sending (.inr hst)]
      exact ⟨hs, ha⟩
  rw [State.transmitting, decide_eq_false htx.1, htx.2]
  rfl

/-- A receiver that is asked to listen, with the transmitter off, is not OFF. -/
theorem State.Ends.not_off {a b : State} (h : a.Ends b) (hl : b.askedToListen = true) (ht : b.transmitting = false) :
    b.rx.state ≠ .off := by
  rw [h.listens, hl, ht]
  cases a.rx.state <;> decide

theorem loadSettingsEffect_refused {s : State} {p : Transaction} {st : Status} (hj : s.judgeLoad p.args = st)
    (hst : st = .wrongState ∨ st = .badArgument) : loadSettingsEffect p s = (st, s) := by
  rw [loadSettingsEffect, hj]
  obtain rfl | rfl := hst <;> rfl

theorem loadSettingsEffect_taken {s : State} {p : Transaction} (hu : s.station = .unconfigured)
    (ha : settingsAcceptable p.args = true) :
    loadSettingsEffect p s = (if settingsHeld p.args = settingsTaken p.args then .ok else .clamped,
      { s with settings := some (Settings.ofValues (settingsHeld p.args)), station := .ready,
               advCost := if (Settings.ofValues (settingsHeld p.args)).gateway then 0 else s.advCost }) := by
  have hj : s.judgeLoad p.args = if settingsHeld p.args = settingsTaken p.args then .ok else .clamped := by
    rw [judgeLoad_eq, if_neg (not_not_intro hu), if_neg (by rw [ha]; decide)]
  rw [loadSettingsEffect, hj]
  dsimp only
  rw [if_pos]
  split
  · exact .inl rfl
  · exact .inr rfl

theorem takeCommand_effect {s u : State} {code : Byte} {p : Transaction} {st : Status} (h : s.closing code p)
    {effect : Transaction → State → Status × State} (he : effect p s.closePort = (st, u)) :
    s.unlessReset (State.takeCommand code effect) = .next { u with latest := some (code, st) } := by
  rw [takeCommand_eq h, he]

/-- Settles O21. -/
theorem loadSettingsAndStartPrepareTheStation : Obligations.LoadSettingsAndStartPrepareTheStation := by
  unfold Obligations.LoadSettingsAndStartPrepareTheStation
  refine ⟨fun s p h => ⟨fun hst => ?_, fun hst ha => ?_, fun hst ha => ?_⟩, fun s p h => ⟨fun hst => ?_, fun hst => ?_⟩⟩
  · exact takeCommand_status h
      (loadSettingsEffect_refused ((judgeLoad_eq _ _).trans (if_pos hst)) (.inl rfl))
  · refine takeCommand_status h (loadSettingsEffect_refused ?_ (.inr rfl))
    have hst' : s.closePort.station = .unconfigured := hst
    rw [judgeLoad_eq, if_neg (not_not_intro hst'), if_pos ha]
  · have he := takeCommand_effect h (loadSettingsEffect_taken (s := s.closePort) hst ha)
    generalize settingsHeld p.args = held at he ⊢
    generalize settingsTaken p.args = given at he ⊢
    exact he
  · exact takeCommand_status h (if_neg hst)
  · obtain ⟨t, ht, hends⟩ := takeCommand_ends h (effect := startEffect) (if_pos hst)
    refine ⟨t, ht, hends, fun hs ha => ?_⟩
    have hstation : t.station = .acquiring := congrArg HostPart.station hends.host
    refine hends.not_off ?_ (hends.transmitting ?_ hs ha)
    · simp [State.askedToListen, State.operating, State.dutyListens, hstation]
    · simp [State.chooses, State.mayChoose]

/-! ## SEND (R121, R122, R163) -/

theorem natLE_lt (bs : List Byte) : natLE bs < 256 ^ bs.length := by
  induction bs with
  | nil => exact Nat.one_pos
  | cons b bs ih =>
    have hb : b.toNat < 256 := b.isLt
    rw [natLE, List.length_cons, Nat.pow_succ]
    omega

theorem arg16_lt (args : List Byte) (i : Nat) : arg16 args i < 65536 :=
  Nat.lt_of_lt_of_le (natLE_lt _) (Nat.pow_le_pow_right (by decide) (List.length_take_le 2 _) : _ ≤ 256 ^ 2)

/-- Settles O23. -/
theorem sendEntersTheForwardQueue : Obligations.SendEntersTheForwardQueue := by
  unfold Obligations.SendEntersTheForwardQueue
  refine fun s p h => ⟨fun st hsend hst => ?_, fun hsend => ?_⟩
  · exact takeCommand_status h ((if_neg (by rw [hsend]; decide)).trans (by rw [hst]; rfl))
  · refine ⟨sendEntry p s.closePort, _, takeCommand_effect h (effect := sendEffect) (if_pos hsend), rfl, ?_, rfl, rfl,
      ⟨_, rfl, ?_⟩, rfl, rfl, rfl, rfl, rfl, rfl, finish_ends _⟩
    · exact BitVec.toNat_ofNat _ _
    · exact (BitVec.toNat_ofNat _ _).trans (Nat.mod_eq_of_lt (arg16_lt _ _))

/-! ## TAKE FRAME and TAKE REPORTS (R120, R164, R165) -/

theorem wholeItems_eq (t : Transaction) : t.wholeItems = if t.out = [] then t.begun else t.begun - 1 := by
  rw [Transaction.wholeItems]
  simp only [List.isEmpty_iff]

/-- The reports after TAKE REPORTS, place by place. -/
theorem removeTaken_eq (ns : List Snap) (rs : List Report) :
    removeTaken ns rs = rs.zipIdx.filterMap fun rk => afterTake ns rk.2 rk.1 := by
  induction rs generalizing ns with
  | nil => cases ns <;> rfl
  | cons r rs ih =>
    have htail : (rs.zipIdx 1).filterMap (fun rk => afterTake ns rk.2 rk.1) =
        rs.zipIdx.filterMap fun rk => afterTake ns.tail rk.2 rk.1 := by
      rw [List.zipIdx_succ, List.filterMap_map]
      cases ns <;> rfl
    rw [List.zipIdx_cons, List.filterMap_cons, Nat.zero_add, htail, ← ih]
    cases ns with
    | nil => cases rs <;> rfl
    | cons n ns =>
      rw [removeTaken]
      by_cases hn : n.stamp = r.stamp
      · simp only [afterTake, List.getElem?_cons_zero, if_pos hn]
        rfl
      · simp only [afterTake, List.getElem?_cons_zero, if_neg hn]
        rfl

theorem afterRead_of_not_drop {n : Nat} {r : Report} (h : ∀ m g k v, r.body ≠ .drop m g k v) : afterRead n r = r := by
  unfold afterRead
  split
  · next m g k v hb => exact absurd hb (h m g k v)
  · rfl

theorem takeFrameEffect_empty {s : State} {p : Transaction} (h : s.ring = []) : takeFrameEffect p s = (.empty, s) := by
  simp only [takeFrameEffect, judge_takeFrame, h]
  rfl

theorem takeFrameEffect_held {s : State} {p : Transaction} {d : Delivery} {rest : List Delivery}
    (h : s.ring = d :: rest) :
    takeFrameEffect p s =
      if 0 < p.wholeItems then (.ok, (State.returnBuffer { s with ring := rest }).finish) else (.ok, s) := by
  simp only [takeFrameEffect, judge_takeFrame, h]
  rfl

/-- Settles O24. -/
theorem takeCommandsRemoveWhatWasReadWhole : Obligations.TakeCommandsRemoveWhatWasReadWhole := by
  unfold Obligations.TakeCommandsRemoveWhatWasReadWhole
  refine ⟨fun s p h => ⟨fun hring => ?_, fun hring hw => ?_, fun d rest hring hw hreq hholds => ?_,
      fun d rest hring hw hrx => ?_⟩,
    fun s p h => ?_, fun s t k => ⟨fun ho => ?_, fun ho => ?_, fun hc => ?_, fun r hc hr => ?_⟩,
    fun n r => ⟨fun m g k v hb => ?_, afterRead_of_not_drop⟩⟩
  · exact takeCommand_status h (takeFrameEffect_empty hring)
  · obtain ⟨d, rest, hcons⟩ := List.exists_cons_of_ne_nil hring
    exact takeCommand_status h ((takeFrameEffect_held (s := s.closePort) hcons).trans (if_neg (by omega)))
  · have he := (takeFrameEffect_held (s := s.closePort) (p := p) hring).trans (if_pos hw)
    rw [returnBuffer_of_request (s := { s.closePort with ring := rest }) hreq hholds] at he
    exact takeCommand_ends h he
  · have he := (takeFrameEffect_held (s := s.closePort) (p := p) hring).trans (if_pos hw)
    rw [returnBuffer_of_none (s := { s.closePort with ring := rest }) hrx] at he
    exact takeCommand_ends h he
  · have he := takeCommand_effect h (effect := takeReportsEffect) rfl
    rw [removeTaken_eq] at he
    simp only [takeReportsEffect.markerShifted, Bool.and_eq_true, decide_eq_true_eq] at he
    exact he
  · rw [wholeItems_eq, if_pos ho]
  · rw [wholeItems_eq, if_neg ho]
  · rw [State.snapOf, if_neg]
    rintro ⟨hcode, hpos⟩
    exact hc.elim (fun hne => hne hcode) (Nat.ne_of_gt hpos)
  · rw [State.snapOf, if_pos ⟨hc, Nat.succ_pos k⟩, Nat.add_sub_cancel, hr]
    rfl
  · rw [afterRead, hb]

/-! ## The link check (R150, R156, R157) -/

theorem pattern_isSome_iff (n : Nat) : (Pattern.ofCode n).isSome = true ↔ n ≤ 2 := by
  match n with
  | 0 | 1 | 2 => decide
  | n + 3 => exact ⟨(fun h => Bool.noConfusion h), fun h => by omega⟩

theorem counterMode_isSome_iff (n : Nat) : (CounterMode.ofCode n).isSome = true ↔ n ≤ 1 := by
  match n with
  | 0 | 1 => decide
  | n + 2 => exact ⟨(fun h => Bool.noConfusion h), fun h => by omega⟩

/-- A code with a value is that value, whatever stands in for one without. -/
theorem some_getD {α : Type} {o : Option α} (h : o.isSome = true) (d : α) : some (o.getD d) = o := by
  obtain ⟨x, rfl⟩ := Option.isSome_iff_exists.mp h
  rfl

theorem checkArgsOk_iff (args : List Byte) : checkArgsOk args = true ↔
    byteAt args 0 ≤ 23 ∧ byteAt args 1 ≤ 5 ∧ 16 ≤ arg16 args 2 ∧ arg16 args 2 ≤ 1024 ∧ byteAt args 4 ≤ 2 ∧
      byteAt args 6 ≤ 1 := by
  simp only [checkArgsOk, Bool.and_eq_true, decide_eq_true_eq, pattern_isSome_iff, counterMode_isSome_iff, and_assoc]

/-- Every count code allows a first probe. -/
theorem readyProbe_first {s : State} {c : CheckRecord} (hc : s.check.record = some c) (hn : c.next = 0) :
    s.readyProbe =
      { s with check := { s.check with state := .pending 0 s.serial s.now, record := some { c with next := 1 } },
               serial := s.serial + 1, workAvailable := true } := by
  have hlimit : (match countLimit c.countCode with | some n => decide (0 < n) | none => true) = true := by
    unfold countLimit
    split
    · next h =>
      split at h
      · cases h
        exact decide_eq_true (Nat.pow_pos (by decide))
      · cases h
    · rfl
  simp only [State.readyProbe, hc, hn]
  exact if_pos hlimit

theorem checkStartEffect_refused {s : State} {p : Transaction} {st : Status} (hj : s.judgeCheck p.args = st)
    (hst : st ≠ .ok) : checkStartEffect p s = (st, s) := by
  unfold checkStartEffect
  rw [hj]
  split
  · exact absurd rfl hst
  · rfl

/-- The check record of a CHECK START with its first probe made ready. -/
def startedCheck (args : List Byte) (peer : Addr) (draws : Nat) : CheckRecord :=
  { checkRecordOf args peer (Config.draw draws % 32768) with next := 1 }

theorem checkStartEffect_taken {s : State} {p : Transaction} {r : Record} (hj : s.judgeCheck p.args = .ok)
    (hr : s.rec? (byteAt p.args 0) = some r) :
    checkStartEffect p s = (.ok, State.finish
      { s with draws := s.draws + 1, serial := s.serial + 1, workAvailable := true,
               check := { s.check with state := .pending 0 s.serial s.now,
                                       record := some (startedCheck p.args r.peer s.draws), live := Counters.zero } }) := by
  unfold checkStartEffect
  rw [hj, hr]
  dsimp only
  rw [readyProbe_first (c := checkRecordOf p.args r.peer (s.drawBelow 32768).1) rfl rfl]
  rfl

/-- Settles O27. -/
theorem checkStartMakesTheFirstProbeReady : Obligations.CheckStartMakesTheFirstProbeReady := by
  unfold Obligations.CheckStartMakesTheFirstProbeReady
  refine ⟨fun s p h => ⟨fun ha => ?_, fun ha hc => ?_, fun ha hc hr => ?_, fun r ha hc hr hu => ?_,
      fun r m ha hc hr hl hm hp hlen => ?_, fun r m ha hc hr hl hm hp hlen => ?_⟩,
    checkArgsOk_iff, rfl, rfl, rfl, rfl, rfl⟩
  · exact takeCommand_status h (checkStartEffect_refused (judgeCheck_bad ha) (by decide))
  · exact takeCommand_status h (checkStartEffect_refused (judgeCheck_busy (s := s.closePort) ha hc) (by decide))
  · exact takeCommand_status h (checkStartEffect_refused (judgeCheck_empty (s := s.closePort) ha hc hr) (by decide))
  · exact takeCommand_status h (checkStartEffect_refused (judgeCheck_unfit (s := s.closePort) ha hc hr hu) (by decide))
  · refine takeCommand_status h (checkStartEffect_refused (st := .badArgument) ?_ (by decide))
    rw [judgeCheck_fit (s := s.closePort) ha hc hr hl hm hp, if_pos hlen]
  · have hj : s.closePort.judgeCheck p.args = .ok := by
      rw [judgeCheck_fit (s := s.closePort) ha hc hr hl hm hp, if_neg (by omega)]
    obtain ⟨t, ht, hends⟩ := takeCommand_ends h (checkStartEffect_taken (s := s.closePort) hj hr)
    obtain ⟨-, -, -, -, hpat, hmode⟩ := (checkArgsOk_iff _).mp ha
    refine ⟨startedCheck p.args r.peer s.draws, t, ht, Nat.mod_lt _ (by decide), rfl, rfl, rfl, rfl, ?_, rfl, ?_, rfl,
      rfl, rfl, hends⟩
    · exact some_getD ((pattern_isSome_iff _).mpr hpat) _
    · exact some_getD ((counterMode_isSome_iff _).mpr hmode) _

theorem endCheck_idle {s : State} (h : s.check.state = .idle) (cause : CheckCause) : s.endCheck cause = s := by
  have hr : s.check.running = false := decide_eq_false (not_not_intro h)
  unfold State.endCheck
  rw [hr]

/-- A running check that ends is IDLE with its cause, its CHECK report made (R157). -/
theorem endCheck_running {s : State} {c : CheckRecord} (cause : CheckCause) (hc : s.check.state ≠ .idle)
    (hrec : s.check.record = some c) :
    (s.endCheck cause).check = { s.check with state := .idle, endCause := cause } ∧
      State.Reported s (s.endCheck cause) c.peer (some c.slot)
        (.check cause c.countCode c.settled s.check.live) := by
  rw [endCheck_eq cause hc hrec]
  refine ⟨?_, putReport_reported { s with check := { s.check with state := .idle, endCause := cause } } _ _ _
    (fun hk => nomatch hk)⟩
  obtain ⟨_, _, _, _, hput⟩ := putReport_eq { s with check := { s.check with state := .idle, endCause := cause } } c.peer
    (some c.slot) (.check cause c.countCode c.settled s.check.live)
  rw [hput]

theorem frozen_of_record {c : Checker} {k : CheckRecord} (h : c.record = some k) :
    c.frozen = { slot := k.slot, peer := k.peer, base := k.base, mode := k.mode, settled := k.settled,
                 running := c.running, counters := c.live } := by
  rw [Checker.frozen, h]

theorem frozen_of_none {c : Checker} (h : c.record = none) :
    c.frozen = { slot := 0xFF, peer := 0, base := 0, mode := .saturate, settled := 0, running := c.running,
                 counters := c.live } := by
  rw [Checker.frozen, h]

theorem frozen_running (c : Checker) : c.frozen.running = c.running ∧ c.frozen.counters = c.live := by
  cases h : c.record with
  | none => exact frozen_of_none h ▸ ⟨rfl, rfl⟩
  | some k => exact frozen_of_record h ▸ ⟨rfl, rfl⟩

/-- Settles O28. -/
theorem checkStopAndFreeze : Obligations.CheckStopAndFreeze := by
  unfold Obligations.CheckStopAndFreeze
  refine fun s p => ⟨fun h hc => ?_, fun c h hc hrec => ?_, fun h ha => ?_, fun h ha => ?_⟩
  · refine takeCommand_ends h (a := s.closePort) ?_
    rw [endCheck_idle (s := s.closePort) hc]
  · have he := endCheck_eq (s := s.closePort) .stopped hc hrec
    obtain ⟨hcheck, hreported⟩ := endCheck_running (s := s.closePort) .stopped hc hrec
    have hends := (finish_ends (s.closePort.endCheck .stopped)).record (some (0x41, .ok))
    refine ⟨_, takeCommand_effect h (effect := fun _ s => (.ok, (s.endCheck .stopped).finish)) rfl,
      hends.check.trans hcheck, ?_, hreported.mono (finish_keepsBut _) (fun hk => nomatch hk)⟩
    rwa [he] at hends ⊢
  · exact takeCommand_status h (if_pos ha)
  · obtain ⟨hrun, hlive⟩ := frozen_running s.check
    refine ⟨s.check.frozen, hlive, hrun, fun c hc => ?_, fun hc => ?_, ?_⟩
    · exact frozen_of_record hc ▸ ⟨rfl, rfl, rfl, rfl, rfl⟩
    · exact frozen_of_none hc ▸ ⟨rfl, rfl, rfl, rfl, rfl⟩
    · exact takeCommand_effect h (effect := checkFreezeEffect) (if_neg (Nat.not_lt.mpr ha))

end Sys2Proof.Machine

/-! Host commands at the rise of select (R160): FORGET and the removal of a record. -/

namespace Sys2Proof.Machine

/-! ## The removal of a record (R38) -/

/-- The slot emptied with its NEIGHBOUR report, and no queued frame's source any more: what the removal of a record does
before the other blocks hear of it. -/
def State.vacated (i : Nat) (cause : LinkCause) (peer : Addr) (s : State) : State :=
  { State.putReport peer (some i) (.neighbour .removed cause none) (s.setSlot i none) with
    fwd := s.fwd.map fun e => if e.source = some i then { e with source := none } else e
    workAvailable := true }

theorem vacated_eq (i : Nat) (cause : LinkCause) (peer : Addr) (s : State) :
    ∃ q o n d, s.vacated i cause peer =
      { s with slots := s.slots.set i none, reports := q, overrun := o, serial := n, discards := d, workAvailable := true,
               fwd := s.fwd.map fun e => if e.source = some i then { e with source := none } else e } := by
  obtain ⟨q, o, n, d, h⟩ := putReport_eq (s.setSlot i none) peer (some i) (.neighbour .removed cause none)
  exact ⟨q, o, n, d, by rw [State.vacated, h]; rfl⟩

theorem removeRecord_eq {s : State} {i : Nat} {r : Record} (cause : LinkCause) (h : s.rec? i = some r) :
    s.removeRecord i cause =
      if r.link = .up then (s.vacated i cause r.peer).announceLoss i r.peer else (s.vacated i cause r.peer).reselect := by
  obtain ⟨q, o, n, d, hput⟩ := putReport_eq (s.setSlot i none) r.peer (some i) (.neighbour .removed cause none)
  simp only [State.removeRecord, h, State.vacated, hput]
  rfl

/-- What the announcements of a loss leave as it was. -/
theorem announceLoss_eq (m : State) (i : Nat) (peer : Addr) :
    ∃ h a w q o n d k x, m.announceLoss i peer =
      { m with nextHop := h, advCost := a, workAvailable := w, reports := q, overrun := o, serial := n, discards := d,
               paths := m.paths.filter fun p => decide (p.via ≠ i), check := k, tx := x } ∧ (m.workAvailable = true → w = true) := by
  obtain ⟨h, a, w, q, o, n, d, hsel, hw⟩ := reselect_eq m
  obtain ⟨k, q', o', n', d', hend⟩ := endCheckOn_eq (m.reselect.removePathsVia i) i
  obtain ⟨x, hx, -⟩ := withdrawReflect_eq ((m.reselect.removePathsVia i).endCheckOn i) peer
  refine ⟨h, a, w, q', o', n', d', k, x, ?_, hw⟩
  rw [State.announceLoss, hx, hend, hsel]
  rfl

theorem announceLoss_keepsReports (m : State) (i : Nat) (peer : Addr) {s : State} {a : Addr}
    {slot : Option Nat} {body : ReportBody} (h : State.Reported s m a slot body) (hr : body.kind ≠ .route)
    (hc : body.kind ≠ .check) : State.Reported s (m.announceLoss i peer) a slot body := by
  have h1 : State.Reported s (m.reselect.removePathsVia i) a slot body := h.mono (reselect_keepsBut m) hr
  have h2 := h1.mono (endCheckOn_keepsBut (m.reselect.removePathsVia i) i) hc
  obtain ⟨x, hx, -⟩ := withdrawReflect_eq ((m.reselect.removePathsVia i).endCheckOn i) peer
  rw [State.announceLoss, hx]
  exact h2

theorem vacated_reported {s : State} {i : Nat} {r : Record} (cause : LinkCause) :
    State.Reported s (s.vacated i cause r.peer) r.peer (some i) (.neighbour .removed cause none) :=
  putReport_reported (s.setSlot i none) _ _ _ fun hk => nomatch hk

/-- The route after a removal is that of a reselection with the slot empty. -/
theorem vacated_route (s : State) (i : Nat) (cause : LinkCause) (peer : Addr) :
    (s.vacated i cause peer).reselect.route = (s.setSlot i none).reselect.route := by
  obtain ⟨_, _, _, _, he⟩ := vacated_eq i cause peer s
  rw [he]
  exact reselect_route_congr rfl rfl rfl

theorem vacated_links (s : State) (i : Nat) (cause : LinkCause) (peer : Addr) :
    State.LinkEnds s (s.vacated i cause peer) ((s.vacated i cause peer).announceLoss i peer) i peer := by
  have hlen : (s.vacated i cause peer).reports.length ≤ s.reports.length + 1 := putReport_length (s.setSlot i none) _ _ _
  obtain ⟨_, _, _, _, he⟩ := vacated_eq i cause peer s
  rw [he] at hlen ⊢
  exact announceLoss_links peer rfl rfl rfl rfl rfl hlen

/-- What the removal of a record leaves as it was, with the work it makes available. -/
theorem removeRecord_leaves {s : State} {i : Nat} {r : Record} (cause : LinkCause) (h : s.rec? i = some r) :
    ∃ hop a q o n d p k x, s.removeRecord i cause =
      { s with slots := s.slots.set i none, nextHop := hop, advCost := a, workAvailable := true, reports := q, overrun := o,
               serial := n, discards := d, paths := p, check := k, tx := x,
               fwd := s.fwd.map fun e => if e.source = some i then { e with source := none } else e } := by
  obtain ⟨_, _, _, _, hv⟩ := vacated_eq i cause r.peer s
  obtain ⟨h1, a1, w1, q1, o1, n1, d1, k1, x1, hl, hw1⟩ := announceLoss_eq (s.vacated i cause r.peer) i r.peer
  obtain ⟨h2, a2, w2, q2, o2, n2, d2, hs, hw2⟩ := reselect_eq (s.vacated i cause r.peer)
  rw [removeRecord_eq cause h]
  split
  · rw [hl, hw1 rfl, hv]
    exact ⟨_, _, _, _, _, _, _, _, _, rfl⟩
  · rw [hs, hw2 rfl, hv]
    exact ⟨_, _, _, _, _, _, _, _, _, rfl⟩

theorem removeRecord_reported {s : State} {i : Nat} {r : Record} (cause : LinkCause) (h : s.rec? i = some r) :
    State.Reported s (s.removeRecord i cause) r.peer (some i) (.neighbour .removed cause none) := by
  rw [removeRecord_eq cause h]
  split
  · exact announceLoss_keepsReports _ _ _ (vacated_reported cause) (fun hk => nomatch hk) fun hk => nomatch hk
  · exact (vacated_reported cause).mono (reselect_keepsBut _) fun hk => nomatch hk

theorem removeRecord_route {s : State} {i : Nat} {r : Record} (cause : LinkCause) (h : s.rec? i = some r) :
    (s.removeRecord i cause).route = (s.setSlot i none).reselect.route := by
  rw [removeRecord_eq cause h]
  split
  · exact (vacated_links s i cause r.peer).route.trans (vacated_route s i cause r.peer)
  · exact vacated_route s i cause r.peer

/-! ## FORGET (R39) -/

theorem forgetEffect_refused {s : State} {p : Transaction} {st : Status} (hj : s.judgeForget p.args = st)
    (hst : st ≠ .ok) : forgetEffect p s = (st, s) := by
  unfold forgetEffect
  rw [hj]
  split
  · exact absurd rfl hst
  · rfl

theorem forgetEffect_taken {s : State} {p : Transaction} (hj : s.judgeForget p.args = .ok) :
    forgetEffect p s = (.ok, (s.removeRecord (byteAt p.args 0) .forgotten).assessAll.finish) := by
  unfold forgetEffect
  rw [hj]
  rfl

/-- Settles O26. -/
theorem forgetRemovesTheRecord : Obligations.ForgetRemovesTheRecord := by
  unfold Obligations.ForgetRemovesTheRecord
  refine ⟨fun s p h => ⟨fun hs => ?_, fun hs hr => ?_, fun r hs hr => ?_⟩, fun s i cause r hr => ?_⟩
  · exact takeCommand_status h (forgetEffect_refused (if_pos hs) (by decide))
  · exact takeCommand_status h (forgetEffect_refused (judgeForget_empty (s := s.closePort) hs hr) (by decide))
  · exact ⟨_, takeCommand_effect h (forgetEffect_taken (judgeForget_held (s := s.closePort) hs hr)), finish_ends _⟩
  · intro t gone
    have hgone : s.vacated i cause r.peer = gone := rfl
    have hrec (j : Nat) : t.rec? j = if j = i then none else s.rec? j := removeRecord_rec? s cause hr j
    have hreported : State.Reported s t r.peer (some i) (.neighbour .removed cause none) := removeRecord_reported cause hr
    have hroute : t.route = (s.setSlot i none).reselect.route := removeRecord_route cause hr
    have ht : t = if r.link = .up then gone.announceLoss i r.peer else gone.reselect := removeRecord_eq cause hr
    obtain ⟨_, _, _, _, _, _, _, _, _, he⟩ := removeRecord_leaves cause hr
    have hleaves : t.host = s.host ∧ t.duty = s.duty ∧ t.ring = s.ring ∧ t.seen = s.seen ∧ t.free = s.free ∧
        t.rx = s.rx ∧ t.fwd = s.fwd.map (fun e => if e.source = some i then { e with source := none } else e) ∧
        t.workAvailable = true := by
      rw [show t = _ from he]
      exact ⟨rfl, rfl, rfl, rfl, rfl, rfl, rfl, rfl⟩
    obtain ⟨hhost, hduty, hring, hseen, hfree, hrx, hfwd, hwork⟩ := hleaves
    refine ⟨hhost, hduty, hring, hseen, hfree, hrx, hrec, hfwd, hwork, hreported, hroute, fun hl => ?_, fun hl => ?_⟩
    · rw [if_neg hl] at ht
      refine ⟨ht, ?_⟩
      obtain ⟨_, _, _, _, hv⟩ := vacated_eq i cause r.peer s
      obtain ⟨_, _, _, _, _, _, _, hs, -⟩ := reselect_eq (s.vacated i cause r.peer)
      rw [ht, ← hgone, hs, hv]
      exact ⟨rfl, rfl, rfl⟩
    · rw [ht, if_pos hl, ← hgone]
      exact vacated_links s i cause r.peer

end Sys2Proof.Machine

/-! Host commands at the rise of select (R160): STOP (R161). -/

namespace Sys2Proof.Machine

/-- A report does not read the port. -/
theorem putReport_closePort (s : State) (a : Addr) (slot : Option Nat) (body : ReportBody) :
    s.closePort.putReport a slot body = (s.putReport a slot body).closePort := by
  simp only [State.putReport, show s.closePort.reports = s.reports from rfl, show s.closePort.serial = s.serial from rfl]
  cases overwrite a slot body s.serial s.reports with
  | some q => rfl
  | none =>
    by_cases h : s.reports.length < 32
    · simp only [if_pos h]
      rfl
    · simp only [if_neg h]
      rfl

theorem recordDrop_stopped (s : State) (e : Entry) :
    s.recordDrop e .stopped =
      match e.tag with
      | some tag => s.putReport e.dest none (.drop 1 tag .stopped e.seq)
      | none => s := by
  unfold State.recordDrop
  cases e.tag with
  | some tag => rfl
  | none => cases e.source <;> rfl

theorem drainReports_closePort (l : List Entry) (s : State) :
    drainReports l s.closePort = (drainReports l s).closePort := by
  induction l generalizing s with
  | nil => rfl
  | cons e l ih =>
    have hdrop : s.closePort.recordDrop e .stopped = (s.recordDrop e .stopped).closePort := by
      simp only [recordDrop_stopped]
      cases e.tag with
      | none => rfl
      | some tag => exact putReport_closePort _ _ _ _
    rw [drainReports, drainReports, hdrop, ih]

theorem drainReports_check (l : List Entry) (s : State) : (drainReports l s).check = s.check := by
  obtain ⟨_, _, _, _, he⟩ := drainReports_eq l s
  rw [he]

/-- What the end of the drain and of the check leave of a STOP with the port closed. -/
theorem stopAll_closePort_ends (s : State) :
    s.closePort.stopAll.check = ((drainReports s.fwd s).closePort.endCheck .stationStopped).check ∧
      s.closePort.stopAll.queue = ((drainReports s.fwd s).closePort.endCheck .stationStopped).queue := by
  rw [← drainReports_closePort]
  exact ⟨rfl, rfl⟩

theorem stopAll_check_idle {s : State} (h : s.check.state = .idle) :
    s.closePort.stopAll.check = s.check ∧ s.closePort.stopAll.queue = (drainReports s.fwd s).queue := by
  have hidle : (drainReports s.fwd s).closePort.check.state = .idle := (congrArg Checker.state (drainReports_check _ s)).trans h
  obtain ⟨hcheck, hqueue⟩ := stopAll_closePort_ends s
  rw [endCheck_idle hidle] at hcheck hqueue
  exact ⟨hcheck.trans (drainReports_check _ s), hqueue⟩

theorem stopAll_check_running {s : State} {c : CheckRecord} (hc : s.check.state ≠ .idle) (hrec : s.check.record = some c) :
    s.closePort.stopAll.check = { s.check with state := .idle, endCause := .stationStopped } ∧
      s.closePort.stopAll.queue = (State.putReport c.peer (some c.slot)
        (.check .stationStopped c.countCode c.settled s.check.live) (drainReports s.fwd s)).queue := by
  have hd : (drainReports s.fwd s).closePort.check = s.check := drainReports_check _ s
  obtain ⟨hcheck, hqueue⟩ := stopAll_closePort_ends s
  have hc' : (drainReports s.fwd s).closePort.check.state ≠ .idle := by rwa [hd]
  have hrec' : (drainReports s.fwd s).closePort.check.record = some c := by rwa [hd]
  refine ⟨?_, ?_⟩
  · rw [hcheck, (endCheck_running .stationStopped hc' hrec').1, hd]
  · rw [hqueue, endCheck_eq .stationStopped hc' hrec', hd]
    exact putReport_queue_congr _ _ _ rfl rfl rfl

theorem stopEffect_operating {s : State} {p : Transaction} (h : s.operating = true) :
    stopEffect p s = (.ok, s.stopAll.setAttention) := by
  unfold State.operating at h
  unfold stopEffect
  cases hst : s.station with
  | acquiring => rfl
  | onAir => rfl
  | unconfigured => rw [hst] at h; cases h
  | ready => rw [hst] at h; cases h

/-- Settles O22. -/
theorem stopEndsEveryBlock : Obligations.StopEndsEveryBlock := by
  unfold Obligations.StopEndsEveryBlock
  refine ⟨fun s p h => ⟨fun hst => ?_, fun hst => ?_, fun hop => ?_⟩,
    fun e l a => ⟨rfl, fun tag ht => ?_, fun ht => ?_⟩⟩
  · refine takeCommand_status h (effect := stopEffect) ?_
    rw [stopEffect, show s.closePort.station = .unconfigured from hst]
  · refine takeCommand_status h (effect := stopEffect) ?_
    rw [stopEffect, show s.closePort.station = .ready from hst]
  · refine ⟨_, takeCommand_effect h (stopEffect_operating (s := s.closePort) hop), ?_⟩
    have hrest : s.closePort.stopAll.setAttention.check = s.closePort.stopAll.check ∧
        s.closePort.stopAll.setAttention.queue = s.closePort.stopAll.queue := ⟨rfl, rfl⟩
    obtain ⟨q, o, n, d, k, he⟩ := stopAll_eq s.closePort
    have hidle := stopAll_check_idle (s := s)
    have hrun (c : CheckRecord) := stopAll_check_running (s := s) (c := c)
    rw [he] at hidle hrun ⊢
    refine ⟨rfl, rfl, rfl, rfl, rfl, rfl, rfl, rfl, rfl, rfl, rfl, rfl, rfl, rfl, rfl, rfl, rfl,
      fun hc => (hidle hc).1, fun hc hsome => ?_, fun hc => (hidle hc).2, fun c hc hrec => (hrun c hc hrec).2,
      fun hf hc => ?_, rfl⟩
    · obtain ⟨c, hrec⟩ := Option.isSome_iff_exists.mp hsome
      exact (hrun c hc hrec).1
    · refine (hidle hc).2.trans ?_
      rw [hf]
      rfl
  · rw [drainReports, recordDrop_stopped, ht]
  · rw [drainReports, recordDrop_stopped, ht]

end Sys2Proof.Machine

/-! A record written with what follows it: RESEED (R73), the expiries of a fade (R84, R85) and of a trim (R99, R100). -/

namespace Sys2Proof.Machine

/-! ## A slot rewritten, and the end of the command -/

/-- `t` is `s` with the record of one slot written: the other records, the host part, the duty state, the check and the
relay's collections are as they were. -/
structure State.Rerecords (s t : State) (i : Nat) (r : Record) : Prop where
  recs    : ∀ j, t.rec? j = if j = i then some r else s.rec? j
  host    : t.host = s.host
  duty    : t.duty = s.duty
  check   : t.check = s.check
  relayed : t.relayed = s.relayed

section
variable {s t u : State} {i : Nat} {r q : Record}

theorem State.Rerecords.at (h : s.Rerecords t i r) : t.rec? i = some r := by rw [h.recs, if_pos rfl]

theorem State.Rerecords.trans (h : s.Rerecords t i q) (h' : t.Rerecords u i r) : s.Rerecords u i r := by
  refine ⟨fun j => ?_, h'.host.trans h.host, h'.duty.trans h.duty, h'.check.trans h.check, h'.relayed.trans h.relayed⟩
  rw [h'.recs, h.recs]
  split <;> rfl

theorem setSlot_rerecords (h : s.rec? i = some q) (r : Record) : s.Rerecords (s.setSlot i (some r)) i r :=
  ⟨fun j => rec?_setSlot s i j _ (rec?_lt s h), rfl, rfl, rfl, rfl⟩

theorem State.Rerecords.putReport (h : s.Rerecords t i r) (a : Addr) (slot : Option Nat) (body : ReportBody) :
    s.Rerecords (t.putReport a slot body) i r := by
  obtain ⟨_, _, _, _, he⟩ := putReport_eq t a slot body
  rw [he]
  exact ⟨h.recs, h.host, h.duty, h.check, h.relayed⟩

theorem State.Rewritten.rerecords (h : s.Rewritten t i r) (hs : s.rec? i = some q) : s.Rerecords t i r := by
  obtain ⟨hrecs, hhost, hduty, hcheck, hrelayed, -⟩ := h.spec (rec?_lt s hs)
  exact ⟨hrecs, hhost, hduty, hcheck, hrelayed⟩

/-- What the end of the command leaves of a state in which one record was written. -/
theorem State.Rerecords.ends (h : s.Rerecords t i r) (he : t.Ends u) :
    (u.rec? i).map Record.uncounted = some r.uncounted ∧ u.host = s.host ∧ u.duty = s.duty ∧ u.check = s.check ∧
      u.relayed = s.relayed ∧ ∀ j, j ≠ i → (u.rec? j).map Record.uncounted = (s.rec? j).map Record.uncounted := by
  refine ⟨by rw [he.slot, h.at]; rfl, he.host.trans h.host, he.duty.trans h.duty, he.check.trans h.check,
    he.relayed.trans h.relayed, fun j hj => ?_⟩
  rw [he.slot, h.recs, if_neg hj]

end

/-! ## The announcement of a change of fade state (R86) -/

theorem rateUsed_rerated (c : Settings) (r : Record) : (r.rerated c).trim.rUsed = rateUsed c (r.rerated c) := rfl

theorem costed_rerated (c : Settings) (r : Record) : (r.rerated c).costed c = r.rerated c := rfl

/-- The record after a change of fade state or shadow flag announced: its trim started on a change into CLEAR where the
trigger holds, its rate class and costs following (R86, R96). -/
def Record.announced (c : Settings) (now : Nat) (was : FadeState) (r : Record) : Record :=
  Record.rerated c
    (if r.fade.state = .clear ∧ was ≠ .clear ∧ trimTriggers c r = true then { r with trim := r.trim.started c now } else r)

theorem announced_leaves (c : Settings) (now : Nat) (was : FadeState) (r : Record) :
    r.announced c now was =
      { r with
        trim := (r.announced c now was).trim, linkCost := (r.announced c now was).linkCost,
        pathCost := (r.announced c now was).pathCost, eligible := (r.announced c now was).eligible } := by
  unfold Record.announced
  split <;> rfl

theorem announced_trim {c : Settings} {now : Nat} {was : FadeState} {r : Record}
    (h : r.fade.state = .clear ∧ was ≠ .clear ∧ trimTriggers c r = true) :
    (r.announced c now was).trim = { r.trim.started c now with rUsed := rateUsed c (r.announced c now was) } := by
  rw [Record.announced, if_pos h]
  rfl

theorem announced_trim_left {c : Settings} {now : Nat} {was : FadeState} {r : Record}
    (h : ¬(r.fade.state = .clear ∧ was ≠ .clear ∧ trimTriggers c r = true)) :
    (r.announced c now was).trim = { r.trim with rUsed := rateUsed c (r.announced c now was) } := by
  rw [Record.announced, if_neg h]
  rfl

section
variable {s : State} {i : Nat} {r : Record}

theorem announceFade_same {was : Fade} (h : s.rec? i = some r) (hst : r.fade.state = was.state)
    (hsh : r.fade.shadow = was.shadow) : s.announceFade i was = s := by
  rw [State.announceFade, h]
  exact if_pos ⟨hst, hsh⟩

theorem announceFade_rewrites {was : Fade} (h : s.rec? i = some r)
    (hne : ¬(r.fade.state = was.state ∧ r.fade.shadow = was.shadow)) :
    s.Rewritten (s.announceFade i was) i (r.announced s.cfg s.now was.state) := by
  rcases announceFade_eq s was h with ⟨h1, h2, -⟩ | ⟨-, hw⟩
  · exact absurd ⟨h1, h2⟩ hne
  · exact hw

/-- The announcement moves the route by the record it leaves. -/
theorem announceFade_route {was : Fade} (h : s.rec? i = some r)
    (hne : ¬(r.fade.state = was.state ∧ r.fade.shadow = was.shadow)) :
    State.Reselects 0 s (s.announceFade i was) i r (r.announced s.cfg s.now was.state) := by
  obtain ⟨r', hr', hsel⟩ := announceFade_reselects was h
  rw [((announceFade_rewrites h hne).rerecords h).at] at hr'
  cases hr'
  exact hsel

/-- Only the state of the fade before and its shadow flag are read by the announcement. -/
theorem announceFade_congr {was was' : Fade} (h : s.rec? i = some r) (hst : was.state = was'.state)
    (hne : r.fade.state ≠ was.state) : s.announceFade i was = s.announceFade i was' := by
  rw [hst] at hne
  simp only [State.announceFade, h, hst, hne, false_and, if_false]

/-- A state is another with the record of one slot written and at most one report made. -/
structure State.Written (s m : State) (i : Nat) (q : Record) : Prop where
  eq   : ∃ k o n d, m = { s.setSlot i (some q) with reports := k, overrun := o, serial := n, discards := d }
  made : m.reports.length ≤ s.reports.length + 1

theorem setSlot_reported_written (s : State) (i : Nat) (q : Record) (a : Addr) (slot : Option Nat) (body : ReportBody) :
    s.Written ((s.setSlot i (some q)).putReport a slot body) i q :=
  ⟨putReport_eq _ _ _ _, putReport_length (s.setSlot i (some q)) _ _ _⟩

theorem State.Written.rerecords {m : State} {q : Record} (hm : s.Written m i q) (h : s.rec? i = some r) :
    s.Rerecords m i q := by
  obtain ⟨_, _, _, _, he⟩ := hm.eq
  rw [he]
  exact ⟨(setSlot_rerecords h q).recs, rfl, rfl, rfl, rfl⟩

/-- What follows the announcement is said of the state before the record was written. -/
theorem State.Written.reselects {m t : State} {q r' : Record} (hm : s.Written m i q)
    (hs : State.Reselects 0 m t i q r') (hp : q.pathCost = r.pathCost) (he : q.eligible = r.eligible) :
    State.Reselects 1 s t i r r' := by
  obtain ⟨⟨_, _, _, _, heq⟩, hmade⟩ := hm
  subst heq
  exact hs.of_base hp he (fun _ => List.set_set (some q)) rfl rfl hmade

/-- A record written and its change of fade state announced. -/
theorem State.Written.announced {m : State} {q : Record} {was : Fade} (hm : s.Written m i q) (h : s.rec? i = some r)
    (hp : q.pathCost = r.pathCost) (he : q.eligible = r.eligible)
    (hne : ¬(q.fade.state = was.state ∧ q.fade.shadow = was.shadow)) :
    s.Rerecords (m.announceFade i was) i (q.announced s.cfg s.now was.state) ∧
      State.Reselects 1 s (m.announceFade i was) i r (q.announced s.cfg s.now was.state) ∧
      m.KeepsBut (m.announceFade i was) .route := by
  have hcfg : m.cfg = s.cfg ∧ m.now = s.now := by
    obtain ⟨_, _, _, _, heq⟩ := hm.eq
    rw [heq]
    exact ⟨rfl, rfl⟩
  have hq := (hm.rerecords h).at
  have hw := announceFade_rewrites hq hne
  have hsel := announceFade_route hq hne
  rw [hcfg.1, hcfg.2] at hw hsel
  obtain ⟨-, -, -, -, -, -, -, -, -, hkeeps⟩ := hw.spec (rec?_lt m hq)
  exact ⟨(hm.rerecords h).trans (hw.rerecords hq), hm.reselects hsel hp he, hkeeps⟩

end

/-! ## RESEED (R73 to R75) -/

/-- The record with its baseline rebuilt from F and its fade part CLEAR (R74, R85). -/
def Record.rebuilt (r : Record) : Record := { r with L := r.F, fade := Fade.none }

theorem rebuilt_triggers_iff (c : Settings) (r : Record) : trimTriggers c r.rebuilt = true ↔
    r.link = .up ∧ r.trim.state = .idle ∧
      ∃ e, r.trim.echo = some e ∧ (c.hTrim : Int) < |(e : Int) - 2 * (31 - (r.trim.step : Int)) - c.mTgt| := by
  rw [trimTriggers_iff]
  exact ⟨fun ⟨h1, _, h3⟩ => ⟨h1, h3⟩, fun ⟨h1, h3⟩ => ⟨h1, rfl, h3⟩⟩

theorem rebuildBaseline_eq {s : State} {i : Nat} {r : Record} (h : s.rec? i = some r) (cause : FadeCause) (d : Nat) :
    s.rebuildBaseline i cause d =
      State.announceFade i r.fade (State.putReport r.peer (some i) (.fade .reseeded cause d r.fade.maxDef r.F r.F)
        (s.setSlot i (some r.rebuilt))) := by
  rw [State.rebuildBaseline, h]
  rfl

/-- A rebuilt baseline reported and announced: nothing more where the fade part was CLEAR already. -/
theorem rebuilt_announced {s : State} {i : Nat} {r : Record} (h : s.rec? i = some r) (body : ReportBody) :
    let m := (s.setSlot i (some r.rebuilt)).putReport r.peer (some i) body
    let t := m.announceFade i r.fade
    ∃ r', s.Rerecords t i r' ∧ State.Reselects 1 s t i r r' ∧ m.KeepsBut t .route ∧
      (r.fade.state = .clear → r.fade.shadow = false → r' = r.rebuilt) ∧
      (¬(r.fade.state = .clear ∧ r.fade.shadow = false) → r' = r.rebuilt.announced s.cfg s.now r.fade.state) := by
  intro m t
  have hw : s.Written m i r.rebuilt := setSlot_reported_written s i _ _ _ _
  by_cases hf : r.fade.state = .clear ∧ r.fade.shadow = false
  · have ht : t = m := announceFade_same (hw.rerecords h).at hf.1.symm hf.2.symm
    rw [ht]
    refine ⟨r.rebuilt, hw.rerecords h, hw.reselects (r := r) ?_ rfl rfl, .rfl, fun _ _ => rfl, fun hn => absurd hf hn⟩
    exact ⟨fun hx => hx.elim (absurd rfl) (absurd rfl), fun _ _ => rfl, fun hx => absurd rfl hx⟩
  · have hne : ¬(r.rebuilt.fade.state = r.fade.state ∧ r.rebuilt.fade.shadow = r.fade.shadow) :=
      fun hx => hf ⟨hx.1.symm, hx.2.symm⟩
    obtain ⟨hrec, hsel, hkeeps⟩ := hw.announced h rfl rfl hne
    exact ⟨_, hrec, hsel, hkeeps, fun h1 h2 => absurd ⟨h1, h2⟩ hf, fun _ => rfl⟩

theorem reseedEffect_refused {s : State} {p : Transaction} {st : Status} (hj : s.judgeReseed p.args = st)
    (hst : st ≠ .ok) : reseedEffect p s = (st, s) := by
  unfold reseedEffect
  rw [hj]
  split
  · exact absurd rfl hst
  · rfl

theorem reseedEffect_taken {s : State} {p : Transaction} {r : Record} (hj : s.judgeReseed p.args = .ok)
    (hr : s.rec? (byteAt p.args 0) = some r) :
    reseedEffect p s = (.ok, (s.rebuildBaseline (byteAt p.args 0) .host (reseedDuration s r)).finish) := by
  unfold reseedEffect
  rw [hj, hr]

/-- A report made before the announcement still stands, or was discarded, once the command has ended. -/
theorem reported_finish {s m t : State} {a : Addr} {slot : Option Nat} {body : ReportBody}
    (h : State.Reported s m a slot body) (hk : m.KeepsBut t .route) (hr : body.kind ≠ .route) (hd : body.kind ≠ .drop) :
    State.Reported s t.finish a slot body :=
  (h.mono hk hr).mono (finish_keepsBut t) hd

/-- Settles O25: the report and the announcement on the rebuilt record, from the port closed. -/
theorem reseedRebuildsTheBaseline : Obligations.ReseedRebuildsTheBaseline := by
  unfold Obligations.ReseedRebuildsTheBaseline
  refine fun s p h => ⟨fun hs => ?_, fun hs hr => ?_, fun r hs hr hl => ?_, fun r hs hr hl => ?_⟩
  · exact takeCommand_status h (reseedEffect_refused (if_pos hs) (by decide))
  · exact takeCommand_status h (reseedEffect_refused (judgeReseed_empty (s := s.closePort) hs hr) (by decide))
  · refine takeCommand_status h (reseedEffect_refused (st := .wrongState) ?_ (by decide))
    rw [judgeReseed_held (s := s.closePort) hs hr, if_neg]
    rcases hl with hl | hl <;> rw [hl] <;> decide
  · intro starts clear a
    have hj : s.closePort.judgeReseed p.args = .ok := by rw [judgeReseed_held (s := s.closePort) hs hr, if_pos hl]
    have he := takeCommand_effect h (reseedEffect_taken (s := s.closePort) hj hr)
    rw [rebuildBaseline_eq (s := s.closePort) hr] at he
    change exec .reseed s = .next { a.finish with latest := some (0x30, .ok) } at he
    have hends : State.Ends { a with latest := some (0x30, .ok) } { a.finish with latest := some (0x30, .ok) } :=
      (finish_ends a).record _
    obtain ⟨r', hrec, hsel, hkeeps, hsame, hmoved⟩ := rebuilt_announced (s := s.closePort) hr
      (.fade .reseeded .host (reseedDuration s.closePort r) r.fade.maxDef r.F r.F)
    have hrep : State.Reported s a.finish r.peer (some (byteAt p.args 0))
        (.fade .reseeded .host (reseedDuration s r) r.fade.maxDef r.F r.F) :=
      reported_finish (putReport_reported (s.closePort.setSlot (byteAt p.args 0) (some r.rebuilt)) _ _ _
        fun hk => nomatch hk) hkeeps (fun hk => nomatch hk) fun hk => nomatch hk
    have hsel' : State.Reselects 1 s a.finish (byteAt p.args 0) r r' :=
      hsel.finish.of_base (n := 0) rfl rfl (fun _ => rfl) rfl rfl (Nat.le_refl _)
    obtain ⟨hat, hhost, hduty, hcheck, hrelayed, hothers⟩ := hrec.ends (finish_ends a)
    have hlatest := congrArg (fun x : HostPart => { x with latest := some (0x30, .ok) }) hhost
    have hparts : r' =
        { r.rebuilt with
          trim := r'.trim, linkCost := r'.linkCost, pathCost := r'.pathCost, eligible := r'.eligible } := by
      by_cases hf : r.fade.state = .clear ∧ r.fade.shadow = false
      · rw [hsame hf.1 hf.2]
      · rw [hmoved hf]
        exact announced_leaves _ _ _ _
    have hfade : r'.fade = clear := by rw [hparts]; rfl
    refine ⟨_, r', he, hends, hlatest, hduty, hcheck, hrelayed, hat, by rw [hparts]; rfl, by rw [hparts]; rfl, hfade,
      fun h1 h2 => ?_, fun hn => ?_, hothers, hrep,
      hsel'.changed, hsel'.same, hsel'.report⟩
    · rw [hsame h1 h2]
      rfl
    · have hr' := hmoved fun hx => hn hx.1
      have hstarts : r.rebuilt.fade.state = .clear ∧ r.fade.state ≠ .clear ∧
          trimTriggers s.closePort.cfg r.rebuilt = true ↔ starts :=
        ⟨fun hx => (rebuilt_triggers_iff _ _).mp hx.2.2, fun hx => ⟨rfl, hn, (rebuilt_triggers_iff _ _).mpr hx⟩⟩
      refine ⟨by rw [hr']; exact rateUsed_rerated _ _, by rw [hr']; exact costed_rerated _ _, fun hx => ?_, fun hx => ?_, ?_⟩
      · rw [hr']
        exact announced_trim (hstarts.mpr hx)
      · rw [hr']
        exact announced_trim_left (mt hstarts.mp hx)
      · rw [hfade]
        exact hparts

end Sys2Proof.Machine

/-! The expiries of a fade (R83 to R85) and of a trim (R99, R100), and the end of a peer window (R146). -/

namespace Sys2Proof.Machine

/-! ## Two reports of one key -/

/-- A pending report of the key is overwritten. -/
theorem overwrite_of_mem (slot : Option Nat) (stamp : Nat) {a : Addr} {body : ReportBody} {r : Report} {l : List Report}
    (hr : r ∈ l) (hkind : r.body.kind = body.kind) (haddr : r.addr = a) : ∃ q, overwrite a slot body stamp l = some q := by
  induction l with
  | nil => cases hr
  | cons p l ih =>
    rw [overwrite]
    split
    · exact ⟨_, rfl⟩
    · next hp =>
      rcases List.mem_cons.mp hr with rfl | hr
      · exact absurd (by simp [hasKey, hkind, haddr]) hp
      · obtain ⟨q, hq⟩ := ih hr
        exact ⟨_, by rw [hq]; rfl⟩

/-- A report made where one of its key stands, or was discarded, stands too, or was discarded. -/
theorem State.Reported.again {s u : State} {a : Addr} {slot slot' : Option Nat} {b b' : ReportBody}
    (h : State.Reported s u a slot b) (hkind : b.kind = b'.kind) (hd : b'.kind ≠ .drop) :
    State.Reported s (u.putReport a slot' b') a slot' b' := by
  rcases h with ⟨r, hr, haddr, -, hbody⟩ | ⟨hfull, hover⟩
  · obtain ⟨q, hq⟩ := overwrite_of_mem slot' u.serial (body := b') hr (hbody ▸ hkind) haddr
    obtain ⟨⟨p, -, hp⟩, -⟩ := overwrite_spec a slot' b' _ _ _ hq
    rw [coalesce_of_not_drop _ (fun n g k v hb => hd (by rw [hb]; rfl))] at hp
    rw [putReport_of_overwrite hq]
    exact .inl ⟨_, hp, rfl, rfl, rfl⟩
  · exact .inr ⟨hfull, (putReport_keepsBut u a slot' b').2 hover⟩

/-- Two reports of one key add one report to the queue at most. -/
theorem putReport_twice_length {s u : State} {a : Addr} {slot : Option Nat} {b b' : ReportBody}
    (hu : u.reports = (s.putReport a slot b).reports) (hkind : b.kind = b'.kind) :
    (u.putReport a slot b').reports.length ≤ s.reports.length + 1 := by
  have hlen := putReport_length u a slot b'
  by_cases hs : u.reports.length ≤ s.reports.length
  · omega
  · cases hw : overwrite a slot b s.serial s.reports with
    | some q =>
      rw [putReport_of_overwrite hw] at hu
      exact absurd ((congrArg List.length hu).trans (overwrite_length _ _ _ _ _ _ hw)).le hs
    | none =>
      rw [putReport_of_none hw] at hu
      split at hu
      · obtain ⟨q, hq⟩ := overwrite_of_mem (a := a) (body := b') (l := u.reports) slot u.serial
          (r := { addr := a, slot := slot, body := b, stamp := s.serial }) (by rw [hu]; simp) hkind rfl
        rw [putReport_of_overwrite hq]
        refine (overwrite_length _ _ _ _ _ _ hq).le.trans ?_
        rw [hu, List.length_append]
        exact Nat.le_refl _
      · exact absurd (congrArg List.length hu).le hs

/-! ## The expiries of a fade (R83 to R85) -/

theorem reached_of_le {e now : Nat} (h : e ≤ now) : reached (some e) now = true := decide_eq_true h

theorem held_of_state {f : Fade} (h : f.state = .faded ∨ f.state = .leaving) : f.state.held = true := by
  rcases h with h | h <;> rw [h] <;> rfl

/-- The record of a fade that has become a SHADOW (R84). -/
def Record.shadowed (r : Record) : Record := { r with fade := { r.fade with shadow := true, brief := none } }

theorem exec_briefExpiry {s : State} {i e : Nat} {r : Record} (h : s.inReset = false) (hr : s.rec? i = some r)
    (hf : r.fade.state = .faded ∨ r.fade.state = .leaving) (he : e ≤ s.nowMs) (hb : r.fade.brief = some e) :
    exec (.briefExpiry i) s = .next ((s.shadowBegins i r).announceFade i r.fade).finish := by
  show execBriefExpiry i s = _
  rw [execBriefExpiry, unlessReset_eq _ h]
  rw [hr]
  exact congrArg _ (if_pos ⟨held_of_state hf, by rw [hb]; exact reached_of_le he⟩)

theorem exec_settleExpiry {s : State} {i e : Nat} {r : Record} (h : s.inReset = false) (hr : s.rec? i = some r)
    (hf : r.fade.state = .faded ∨ r.fade.state = .leaving) (he : e ≤ s.nowMs) (hs : r.fade.settle = some e) :
    exec (.settleExpiry i) s = .next (State.rebuildBaseline i .settle (e - r.fade.start.getD e)
      (if 1000 * s.cfg.tSettle ≤ s.cfg.tBrief then s.shadowBegins i r else s)).finish := by
  show execSettleExpiry i s = _
  rw [execSettleExpiry, unlessReset_eq _ h]
  rw [hr]
  dsimp only
  rw [hs]
  simp only [settleCarriesBrief, decide_eq_true_eq]
  exact congrArg _ (if_pos ⟨held_of_state hf, he⟩)

/-- The slot written anew, with one report more. -/
theorem State.Written.again {s u : State} {i : Nat} {q : Record} (hu : s.Written u i q) (q' : Record) (a : Addr)
    (slot : Option Nat) (body : ReportBody) : ∃ k o n d, (u.setSlot i (some q')).putReport a slot body =
      { s.setSlot i (some q') with reports := k, overrun := o, serial := n, discards := d } := by
  obtain ⟨⟨_, _, _, _, rfl⟩, -⟩ := hu
  obtain ⟨k, o, n, d, he⟩ := putReport_eq (State.setSlot i (some q') { s.setSlot i (some q) with
    reports := _, overrun := _, serial := _, discards := _ }) a slot body
  refine ⟨k, o, n, d, he.trans ?_⟩
  simp only [State.setSlot, List.set_set]

/-- What the settle expiry does before the announcement, where it carries the brief expiry too (R83). -/
theorem settle_rebuilds {s : State} {i : Nat} {r : Record} (hr : s.rec? i = some r) (hclear : r.fade.state ≠ .clear)
    (d : Nat) :
    let b := if 1000 * s.cfg.tSettle ≤ s.cfg.tBrief then s.shadowBegins i r else s
    let m := State.putReport r.peer (some i) (.fade .reseeded .settle d r.fade.maxDef r.F r.F)
      (b.setSlot i (some r.rebuilt))
    b.rebuildBaseline i .settle d = m.announceFade i r.fade ∧ s.Written m i r.rebuilt ∧
      State.Reported s m r.peer (some i) (.fade .reseeded .settle d r.fade.maxDef r.F r.F) := by
  split
  · have hw : s.Written (s.shadowBegins i r) i r.shadowed := setSlot_reported_written s i _ _ _ _
    have hat := (hw.rerecords hr).at
    have hlen := putReport_twice_length (s := s.setSlot i (some r.shadowed))
      (u := (s.shadowBegins i r).setSlot i (some r.rebuilt)) (a := r.peer) (slot := some i)
      (b := .fade .shadowBegun .none s.cfg.tBrief r.fade.maxDef r.F r.L)
      (b' := .fade .reseeded .settle d r.fade.maxDef r.F r.F) rfl rfl
    have hfirst : State.Reported s ((s.shadowBegins i r).setSlot i (some r.rebuilt)) r.peer (some i)
        (.fade .shadowBegun .none s.cfg.tBrief r.fade.maxDef r.F r.L) :=
      putReport_reported (s.setSlot i (some r.shadowed)) _ _ _ fun hk => nomatch hk
    have hmade := hfirst.again (slot' := some i) (b' := .fade .reseeded .settle d r.fade.maxDef r.F r.F) rfl
      fun hk => nomatch hk
    have hm := hw.again r.rebuilt r.peer (some i) (.fade .reseeded .settle d r.fade.maxDef r.F r.F)
    refine ⟨?_, ⟨hm, hlen⟩, hmade⟩
    have hslot : (State.putReport r.peer (some i) (.fade .reseeded .settle d r.fade.maxDef r.F r.F)
        ((s.shadowBegins i r).setSlot i (some r.rebuilt))).rec? i = some r.rebuilt := by
      obtain ⟨_, _, _, _, he⟩ := hm
      rw [he]
      exact (setSlot_rerecords hr _).at
    exact (rebuildBaseline_eq hat _ _).trans (announceFade_congr hslot rfl fun hx => hclear hx.symm)
  · exact ⟨rebuildBaseline_eq hr _ _, setSlot_reported_written s i _ _ _ _,
      putReport_reported (s.setSlot i (some r.rebuilt)) _ _ _ fun hk => nomatch hk⟩

/-- Settles O46. -/
theorem longFadesBecomeShadowsAndSettle : Obligations.LongFadesBecomeShadowsAndSettle := by
  unfold Obligations.LongFadesBecomeShadowsAndSettle
  refine fun s i e r h hr hf he => ?_
  intro shadowed
  have hclear : r.fade.state ≠ .clear := by rcases hf with hf | hf <;> rw [hf] <;> decide
  refine ⟨fun hb hsh => ?_, fun hs => ?_⟩
  · have hw : s.Written shadowed i r.shadowed := setSlot_reported_written s i _ _ _ _
    obtain ⟨hrec, hsel, hkeeps⟩ := hw.announced (was := r.fade) hr rfl rfl
      (fun hx => by rw [hsh] at hx; exact Bool.noConfusion hx.2)
    have htrim := announced_trim_left (c := s.cfg) (now := s.now) (was := r.fade.state) (r := r.shadowed)
      fun hx => hclear hx.1
    have hparts := announced_leaves s.cfg s.now r.fade.state r.shadowed
    have hends := finish_ends (shadowed.announceFade i r.fade)
    obtain ⟨hat, hhost, hduty, hcheck, hrelayed, hothers⟩ := hrec.ends hends
    have hrep := reported_finish (putReport_reported (s.setSlot i (some r.shadowed)) r.peer (some i)
      (.fade .shadowBegun .none s.cfg.tBrief r.fade.maxDef r.F r.L) fun hk => nomatch hk) hkeeps
      (fun hk => nomatch hk) fun hk => nomatch hk
    refine ⟨_, _, exec_briefExpiry h hr hf he hb, hat, hends, ?_, costed_rerated _ _, hhost, hduty, hcheck, hrelayed,
      hothers, hrep, hsel.finish⟩
    rw [htrim] at hparts
    exact hparts
  · intro starts
    obtain ⟨hb, hw, hmade⟩ := settle_rebuilds hr hclear (e - r.fade.start.getD e)
    have hx := exec_settleExpiry h hr hf he hs
    rw [hb] at hx
    obtain ⟨hrec, hsel, hkeeps⟩ := hw.announced (was := r.fade) hr rfl rfl fun hx => hclear hx.1.symm
    have hends := finish_ends (State.announceFade i r.fade (State.putReport r.peer (some i)
          (.fade .reseeded .settle (e - r.fade.start.getD e) r.fade.maxDef r.F r.F)
          ((if 1000 * s.cfg.tSettle ≤ s.cfg.tBrief then s.shadowBegins i r else s).setSlot i (some r.rebuilt))))
    obtain ⟨hat, hhost, hduty, hcheck, hrelayed, hothers⟩ := hrec.ends hends
    have hparts := announced_leaves s.cfg s.now r.fade.state r.rebuilt
    have hfade : (r.rebuilt.announced s.cfg s.now r.fade.state).fade = Fade.none := by rw [hparts]; rfl
    have hstarts : r.rebuilt.fade.state = .clear ∧ r.fade.state ≠ .clear ∧ trimTriggers s.cfg r.rebuilt = true ↔ starts :=
      ⟨fun hx => (rebuilt_triggers_iff _ _).mp hx.2.2, fun hx => ⟨rfl, hclear, (rebuilt_triggers_iff _ _).mpr hx⟩⟩
    refine ⟨_, _, hx, hat, hparts, ?_, fun hy => announced_trim (hstarts.mpr hy),
      fun hy => announced_trim_left (mt hstarts.mp hy), costed_rerated _ _, hhost, hduty, hcheck, hrelayed, hothers,
      reported_finish hmade hkeeps (fun hk => nomatch hk) (fun hk => nomatch hk), hsel.finish⟩
    rw [hfade]
    exact hends

/-! ## The expiries of a trim (R99, R100) and the end of a peer window (R146) -/

theorem exec_settleTimeout {s : State} {i e : Nat} {r : Record} (h : s.inReset = false) (hr : s.rec? i = some r)
    (he : e ≤ s.now) (hst : r.trim.state = .settling) (ht : r.trim.timer = some e) :
    exec (.settleTimeout i) s = .next (s.endTrim i .silent).finish := by
  show execSettleTimeout i s = _
  rw [execSettleTimeout, unlessReset_eq _ h, hr]
  exact congrArg _ (if_pos ⟨hst, by rw [ht]; exact reached_of_le he⟩)

theorem exec_trimHoldoffExpiry {s : State} {i e : Nat} {r : Record} (h : s.inReset = false) (hr : s.rec? i = some r)
    (he : e ≤ s.now) (hst : r.trim.state = .holdoff) (ht : r.trim.timer = some e) :
    exec (.trimHoldoffExpiry i) s = .next (State.rerate i (State.assessTrim i
      (s.setSlot i (some { r with trim := { r.trim with state := .idle, timer := none } })))).finish := by
  show execTrimHoldoffExpiry i s = _
  rw [execTrimHoldoffExpiry, unlessReset_eq _ h, hr]
  exact congrArg _ (if_pos ⟨hst, by rw [ht]; exact reached_of_le he⟩)

theorem exec_peerWindowEnd {s : State} {i e : Nat} {r : Record} (h : s.inReset = false) (hr : s.rec? i = some r)
    (he : e ≤ s.now) (hw : r.windowEnd = some e) :
    exec (.peerWindowEnd i) s = .next (s.setSlot i (some { r with windowEnd := none })) := by
  show execPeerWindowEnd i s = _
  rw [execPeerWindowEnd, unlessReset_eq _ h, hr]
  exact congrArg _ (if_pos (by rw [hw]; exact reached_of_le he))

/-- The record whose holdoff has ended (R100). -/
def Record.idled (r : Record) : Record := { r with trim := { r.trim with state := .idle, timer := none } }

theorem idled_triggers_iff (c : Settings) (r : Record) : trimTriggers c r.idled = true ↔
    r.link = .up ∧ r.fade.state = .clear ∧
      ∃ e, r.trim.echo = some e ∧ (c.hTrim : Int) < |(e : Int) - 2 * (31 - (r.trim.step : Int)) - c.mTgt| := by
  rw [trimTriggers_iff]
  exact ⟨fun ⟨h1, h2, _, h4⟩ => ⟨h1, h2, h4⟩, fun ⟨h1, h2, h4⟩ => ⟨h1, h2, rfl, h4⟩⟩

theorem endTrim_silent {s : State} {i : Nat} {r : Record} (h : s.rec? i = some r) : s.endTrim i .silent =
    State.putReport r.peer (some i) (.trim .silent r.trim.step r.trim.clamped (r.trim.echo.getD 0)
      (expectedMargin (r.trim.echo.getD 0) r.trim.step) r.trim.count (rateUsed s.cfg r))
      (s.setSlot i (some { r with trim := r.trim.ended s.cfg s.now .silent })) := by
  rw [State.endTrim, h]
  rfl

/-- The trigger assessed on a record whose holdoff has ended, and its rate class (R100, R104). -/
theorem idled_rerated {s : State} {i : Nat} {r : Record} (h : s.rec? i = some r) :
    let r' := Record.rerated s.cfg (if trimTriggers s.cfg r.idled = true then
      { r.idled with trim := r.idled.trim.started s.cfg s.now } else r.idled)
    let t := State.rerate i (State.assessTrim i (s.setSlot i (some r.idled)))
    s.Rerecords t i r' ∧ State.Reselects 0 s t i r r' := by
  have hslot (q : Record) : (s.setSlot i (some q)).rec? i = some q := (setSlot_rerecords h q).at
  rw [assessTrim_eq _ (hslot _), setSlot_setSlot]
  have hw : (s.setSlot i _).Rewritten _ i _ := rerate_eq _ (hslot (if trimTriggers s.cfg r.idled = true then
      { r.idled with trim := r.idled.trim.started s.cfg s.now } else r.idled))
  refine ⟨(setSlot_rerecords h _).trans (hw.rerecords (hslot _)), ?_⟩
  refine (rerate_reselects (hslot _)).of_base (n := 0) ?_ ?_ (fun _ => List.set_set _) rfl rfl (Nat.le_refl _)
  · split <;> rfl
  · split <;> rfl

/-- Settles O47. -/
theorem trimTimersAndPeerWindowsEnd : Obligations.TrimTimersAndPeerWindowsEnd := by
  unfold Obligations.TrimTimersAndPeerWindowsEnd
  refine fun s i e r h hr he => ⟨fun hst ht => ?_, fun hst ht => ?_, fun hw => exec_peerWindowEnd h hr he hw⟩
  · have hx := exec_settleTimeout h hr he hst ht
    rw [endTrim_silent hr] at hx
    have hends := finish_ends (State.putReport r.peer (some i) (.trim .silent r.trim.step r.trim.clamped
      (r.trim.echo.getD 0) (expectedMargin (r.trim.echo.getD 0) r.trim.step) r.trim.count (rateUsed s.cfg r))
      (s.setSlot i (some { r with trim := r.trim.ended s.cfg s.now .silent })))
    have hw := setSlot_reported_written s i { r with trim := r.trim.ended s.cfg s.now .silent } r.peer (some i)
      (.trim .silent r.trim.step r.trim.clamped (r.trim.echo.getD 0)
        (expectedMargin (r.trim.echo.getD 0) r.trim.step) r.trim.count (rateUsed s.cfg r))
    obtain ⟨hat, -, -, -, -, hothers⟩ := (hw.rerecords hr).ends hends
    have hmade := (putReport_reported (s.setSlot i (some { r with trim := r.trim.ended s.cfg s.now .silent })) r.peer
      (some i) (.trim .silent r.trim.step r.trim.clamped (r.trim.echo.getD 0)
        (expectedMargin (r.trim.echo.getD 0) r.trim.step) r.trim.count (rateUsed s.cfg r))
      fun hk => nomatch hk).mono (finish_keepsBut _) fun hk => nomatch hk
    exact ⟨_, _, hx, hat, rfl, ⟨hends, hmade⟩, hothers⟩
  · intro starts
    have hx := exec_trimHoldoffExpiry h hr he hst ht
    obtain ⟨hrec, hsel⟩ := idled_rerated hr
    have hends := finish_ends (State.rerate i (State.assessTrim i (s.setSlot i (some r.idled))))
    obtain ⟨hat, hhost, hduty, hcheck, hrelayed, hothers⟩ := hrec.ends hends
    have hiff := idled_triggers_iff s.cfg r
    refine ⟨_, _, hx, hat, hends, fun hn => ?_, fun hy => ?_, ?_, costed_rerated _ _, hhost, hduty, hcheck, hrelayed,
      hothers, hsel.finish⟩
    · rw [if_neg (mt hiff.mp hn)]
      rfl
    · rw [if_pos (hiff.mpr hy)]
      obtain ⟨-, -, E, hE, -⟩ := hy
      have hecho : r.idled.trim.echo = some E := hE
      have hstep : (r.idled.trim.started s.cfg s.now).step ≤ 31 := by rw [started_step hecho]; omega
      have heq := started_eq (c := s.cfg) (now := s.now) hecho
      have hparts : (r.idled.trim.started s.cfg s.now).state = .settling ∧ (r.idled.trim.started s.cfg s.now).count = 0 ∧
          (r.idled.trim.started s.cfg s.now).echo = r.trim.echo ∧
          (r.idled.trim.started s.cfg s.now).timer = some (s.now + secs s.cfg.settleTimeout) := by
        rw [heq]
        exact ⟨rfl, rfl, rfl, rfl⟩
      obtain ⟨hstate, hcount, hkept, htimer⟩ := hparts
      exact ⟨rfl, hstate, hcount, hkept, hstep, htimer⟩
    · split <;> rfl

end Sys2Proof.Machine

/-! The Duty Controller's timers (R139 to R148) and the Link Checker's probes (R149 to R157). -/

namespace Sys2Proof.Machine

/-! ## The Duty Controller -/

theorem exec_acquisitionExpiry {s : State} {e : Nat} (h : s.inReset = false) (he : e ≤ s.now)
    (hst : s.station = .acquiring) (ha : s.duty.acquisition = some e) :
    exec .acquisitionExpiry s = .next (State.finishLinks (State.beaconFallsDue s.now
        { s with station := .onAir,
                 duty := { s.duty with acquisition := none, stepDown := dutyTimer s.now s.cfg.tQuiet } })) := by
  show execAcquisitionExpiry s = _
  rw [execAcquisitionExpiry, unlessReset_eq _ h]
  exact congrArg _ (if_pos ⟨hst, by rw [ha]; exact reached_of_le he⟩)

theorem exec_stepDownExpiry {s : State} {e : Nat} (h : s.inReset = false) (he : e ≤ s.now) (hst : s.station = .onAir)
    (hm : s.duty.mode ≠ .doze) (hd : s.duty.stepDown = some e) :
    exec .stepDownExpiry s = .next (State.putReport 0 none
      (.duty (s.duty.steppedDown s.now s.cfg.tDoze).mode s.duty.mode false)
      { s with duty := s.duty.steppedDown s.now s.cfg.tDoze }).finish := by
  show execStepDownExpiry s = _
  rw [execStepDownExpiry, unlessReset_eq _ h]
  exact congrArg _ (if_pos ⟨hst, hm, by rw [hd]; exact reached_of_le he⟩)

theorem exec_beaconDue {s : State} {e : Nat} (h : s.inReset = false) (he : e ≤ s.now) (hst : s.station = .onAir)
    (hd : s.duty.nextDue = some e) : exec .beaconDue s = .next (s.beaconFallsDue e).finish := by
  show execBeaconDue s = _
  rw [execBeaconDue, unlessReset_eq _ h, hd]
  exact congrArg _ (if_pos ⟨hst, he⟩)

theorem exec_listenPeriodEnd {s : State} {e : Nat} (h : s.inReset = false) (he : e ≤ s.now)
    (hl : s.duty.listen = .window e ∨ s.duty.listen = .survey e) :
    exec .listenPeriodEnd s = .next (State.finish { s with duty := { s.duty with listen := .none } }) := by
  show execListenPeriodEnd s = _
  have hends : s.duty.listen.ends? = some e := by rcases hl with hl | hl <;> rw [hl] <;> rfl
  rw [execListenPeriodEnd, unlessReset_eq _ h, hends]
  exact congrArg _ (if_pos (reached_of_le he))

/-- A DUTY report made by a command that ends as every command does. -/
theorem dutyReport_finish (s : State) (d : Duty) (m m' : DutyMode) (w : Bool) :
    State.Reported s (State.putReport 0 none (.duty m m' w) { s with duty := d }).finish 0 none (.duty m m' w) :=
  (putReport_reported { s with duty := d } 0 none (.duty m m' w) fun hk => nomatch hk).mono (finish_keepsBut _)
    fun hk => nomatch hk

theorem activity_asleep {s : State} (hst : s.station = .onAir) (hm : s.duty.mode ≠ .active) :
    s.activity = State.putReport 0 none (.duty .active s.duty.mode true) { s with
      duty := { s.duty with
        mode := .active, stepDown := dutyTimer s.now s.cfg.tQuiet,
        listen := if s.duty.mode = .doze then .none else s.duty.listen,
        survey := if s.duty.mode = .doze then 0 else s.duty.survey } } := by
  rw [State.activity, if_pos hst]
  exact if_neg hm

theorem activity_active {s : State} (hst : s.station = .onAir) (hm : s.duty.mode = .active) :
    s.activity = { s with duty := { s.duty with stepDown := dutyTimer s.now s.cfg.tQuiet } } := by
  have hdoze : s.duty.mode ≠ .doze := by rw [hm]; decide
  rw [State.activity, if_pos hst]
  simp only [if_pos hm, if_neg hdoze]
  rw [← hm]

/-- Settles O49. -/
theorem dutyTimersMoveTheStation : Obligations.DutyTimersMoveTheStation := by
  unfold Obligations.DutyTimersMoveTheStation
  refine ⟨fun s e h he => ⟨fun hst ha => ?_, fun hst hm hd => ?_, fun hst hm hd => ?_, fun hst hd => ?_, fun hl => ?_⟩,
    fun s => ⟨fun hst => if_neg hst, fun hst hm => activity_active hst hm, fun hst hm => ⟨activity_asleep hst hm, ?_⟩,
      fun hm => if_neg hm, fun hm hn => ?_, fun hm hn => ?_⟩, interval_eq⟩
  · have hx := exec_acquisitionExpiry h he hst ha
    simp only [State.finishLinks, State.beaconFallsDue, Duty.dueAt, dutyTimer, ms, secs] at hx
    exact ⟨_, hx, finish_ends _⟩
  · have hx := exec_stepDownExpiry h he hst (by rw [hm]; decide) hd
    simp only [Duty.steppedDown, hm, dutyTimer, secs] at hx
    exact ⟨_, hx, finish_ends _, dutyReport_finish s _ _ _ _⟩
  · have hx := exec_stepDownExpiry h he hst (by rw [hm]; decide) hd
    simp only [Duty.steppedDown, hm] at hx
    exact ⟨_, hx, finish_ends _, dutyReport_finish s _ _ _ _⟩
  · exact ⟨_, exec_beaconDue h he hst hd, finish_ends _⟩
  · exact ⟨_, exec_listenPeriodEnd h he hl, finish_ends _⟩
  · rw [activity_asleep hst hm]
    exact putReport_reported { s with
      duty := { s.duty with
        mode := .active, stepDown := dutyTimer s.now s.cfg.tQuiet,
        listen := if s.duty.mode = .doze then .none else s.duty.listen,
        survey := if s.duty.mode = .doze then 0 else s.duty.survey } } 0 none (.duty .active s.duty.mode true)
      fun hk => nomatch hk
  · rw [State.beaconEnded, if_pos hm, if_neg (by omega)]
    rfl
  · rw [State.beaconEnded, if_pos hm, if_pos hn]
    rfl

/-! ## The Link Checker: pace and settling (R151, R154, R157) -/

theorem exec_checkPaceExpiry {s : State} {e : Nat} (h : s.inReset = false) (he : e ≤ s.now)
    (hc : s.check.state = .pacing e) : exec .checkPaceExpiry s = .next s.readyProbe.finish := by
  show execCheckPaceExpiry s = _
  rw [execCheckPaceExpiry, unlessReset_eq _ h, hc]
  exact congrArg _ (if_pos he)

theorem exec_reflectTimeout {s : State} {e n : Nat} (h : s.inReset = false) (he : e ≤ s.now)
    (hc : s.check.state = .outstanding n e) : exec .reflectTimeout s = .next (s.probeSettled false).finish := by
  show execReflectTimeout s = _
  rw [execReflectTimeout, unlessReset_eq _ h, hc]
  exact congrArg _ (if_pos he)

section
variable {s : State} {c : CheckRecord} (hrec : s.check.record = some c)
include hrec

theorem readyProbe_more (h : ∀ m, countLimit c.countCode = some m → c.next < m) : s.readyProbe =
    { s with
      serial := s.serial + 1, workAvailable := true,
      check := { s.check with state := .pending c.next s.serial s.now,
                              record := some { c with next := (c.next + 1) % 4294967296 } } } := by
  have hcond : (match countLimit c.countCode with | some n => decide (c.next < n) | none => true) = true := by
    cases hl : countLimit c.countCode with
    | none => rfl
    | some m => exact decide_eq_true (h m hl)
  rw [State.readyProbe, hrec]
  exact if_pos hcond

theorem readyProbe_none (h : ¬∀ m, countLimit c.countCode = some m → c.next < m) : s.readyProbe = s := by
  have hcond : (match countLimit c.countCode with | some n => decide (c.next < n) | none => true) = false := by
    cases hl : countLimit c.countCode with
    | none => exact absurd (fun m hm => absurd (hl ▸ hm) (by simp)) h
    | some m => exact decide_eq_false fun hlt => h fun m' hm' => by rw [hl] at hm'; cases hm'; exact hlt
  rw [State.readyProbe, hrec]
  exact if_neg fun ht => Bool.false_ne_true (hcond.symm.trans ht)

/-- A probe settled with a counter at its largest value (R155). -/
theorem probeSettled_saturated : s.probeSettled true =
    State.endCheck .saturated
      { s with check := { s.check with record := some { c with settled := (c.settled + 1) % 65536 } } } := by
  rw [State.probeSettled, hrec]
  rfl

/-- A probe settled with the full count (R157). -/
theorem probeSettled_done (h : countLimit c.countCode = some ((c.settled + 1) % 65536)) : s.probeSettled false =
    State.endCheck .countDone
      { s with check := { s.check with record := some { c with settled := (c.settled + 1) % 65536 } } } := by
  rw [State.probeSettled, hrec]
  exact if_pos h

/-- A probe settled with more to come (R151). -/
theorem probeSettled_next (h : countLimit c.countCode ≠ some ((c.settled + 1) % 65536)) : s.probeSettled false =
    State.nextProbe
      { s with check := { s.check with record := some { c with settled := (c.settled + 1) % 65536 } } } := by
  rw [State.probeSettled, hrec]
  exact if_neg h

theorem nextProbe_first (h : c.lastEnd = none) : s.nextProbe = s.readyProbe := by
  rw [State.nextProbe, hrec]
  dsimp only
  rw [h]

theorem nextProbe_paced {w : Nat} (h : c.lastEnd = some w) (hp : w + 1000 * s.checkPace c ≤ s.now) :
    s.nextProbe = s.readyProbe := by
  rw [State.nextProbe, hrec]
  dsimp only
  rw [h]
  exact if_pos hp

theorem nextProbe_early {w : Nat} (h : c.lastEnd = some w) (hp : s.now < w + 1000 * s.checkPace c) :
    s.nextProbe = { s with check := { s.check with state := .pacing (w + 1000 * s.checkPace c) } } := by
  rw [State.nextProbe, hrec]
  dsimp only
  rw [h]
  exact if_neg (Nat.not_le.mpr hp)

end

theorem countLimit_eq (code : Nat) : (code = 0 → countLimit code = some 1) ∧ (code = 1 → countLimit code = some 10) ∧
    (code = 2 → countLimit code = some 100) ∧ (code = 3 → countLimit code = some 1000) ∧
    (code = 4 → countLimit code = some 10000) ∧ (code = 5 → countLimit code = none) := by
  refine ⟨?_, ?_, ?_, ?_, ?_, ?_⟩ <;> rintro rfl <;> rfl

/-- Settles O50. -/
theorem checkTimersPaceAndSettleProbes : Obligations.CheckTimersPaceAndSettleProbes := by
  unfold Obligations.CheckTimersPaceAndSettleProbes
  refine ⟨fun s c e n h hrec he => ⟨fun hc => ?_, fun hc => ?_⟩, fun s c hrec => ?_, countLimit_eq⟩
  · exact ⟨_, exec_checkPaceExpiry h he hc, finish_ends _⟩
  · exact ⟨_, exec_reflectTimeout h he hc, finish_ends _⟩
  · intro limit k c' more ready ended
    obtain ⟨s1, hs1⟩ : ∃ s1 : State, s1 = { s with check := { s.check with record := some c' } } := ⟨_, rfl⟩
    have hrec' : s1.check.record = some c' := by rw [hs1]
    have hends (cause : CheckCause) (hc : s.check.state ≠ .idle) : ended cause (s1.endCheck cause) := by
      have hc' : s1.check.state ≠ .idle := by rw [hs1]; exact hc
      have hend := endCheck_eq cause hc' hrec'
      have hmade := (endCheck_running cause hc' hrec').2
      subst hs1
      exact ⟨hend, hmade⟩
    have hnext (hl : limit ≠ some k) : s.probeSettled false = s1.nextProbe := by
      rw [hs1]
      exact probeSettled_next hrec hl
    have hready (hm : more) : s1.readyProbe = ready c' := by
      have hr := readyProbe_more hrec' hm
      subst hs1
      exact hr
    have hpace : s1.checkPace c' = s.checkPace c ∧ s1.now = s.now := by
      rw [hs1]
      exact ⟨rfl, rfl⟩
    refine ⟨readyProbe_more hrec, readyProbe_none hrec, fun hc => ⟨?_, fun hl => ?_⟩,
      fun hl => ⟨fun hm hlast => ?_, fun w hm hlast hp => ?_, fun w hlast hp => ?_⟩, fun r m hr hm => ?_, fun hn => ?_⟩
    · rw [probeSettled_saturated hrec, ← hs1]
      exact hends .saturated hc
    · rw [probeSettled_done hrec hl, ← hs1]
      exact hends .countDone hc
    · rw [hnext hl, nextProbe_first hrec' hlast, hready hm]
    · rw [hnext hl, nextProbe_paced hrec' hlast (by rw [hpace.1, hpace.2]; exact hp), hready hm]
    · rw [hnext hl, nextProbe_early hrec' hlast (by rw [hpace.1, hpace.2]; exact hp), hpace.1, hs1]
    · rw [State.checkPace, hr]
      dsimp only
      rw [hm]
    · unfold State.checkPace
      split
      · next r hr =>
        split
        · next m hm => exact absurd hm (hn r m hr)
        · rfl
      · rfl

/-! ## A probe from its end to its settling (R153 to R155) -/

section
variable {s : State} {c : CheckRecord} {k id rd : Nat}

/-- A check whose probe has been sent (R151): OUTSTANDING for 50 ms, its counter raised. -/
def Checker.out (now k n : Nat) (c : CheckRecord) (v : Checker) : Checker :=
  { v with state := .outstanding k (now + 50000), record := some { c with lastEnd := some now },
           live := { v.live with sent := n } }

theorem probeSent_counted {n : Nat} (hp : s.check.state = .pending k id rd) (hrec : s.check.record = some c)
    (hn : raiseCounter c.mode largest32 s.check.live.sent 1 = (n, false)) :
    s.probeSent id = { s with check := s.check.out s.now k n c } := by
  rw [State.probeSent, hp, hrec]
  simp only [hn, if_true]
  rfl

theorem probeSent_full {n : Nat} (hp : s.check.state = .pending k id rd) (hrec : s.check.record = some c)
    (hn : raiseCounter c.mode largest32 s.check.live.sent 1 = (n, true)) :
    s.probeSent id = State.endCheck .saturated { s with check := s.check.out s.now k n c } := by
  rw [State.probeSent, hp, hrec]
  simp only [hn, if_true]
  rfl

theorem probeSent_ended (h : ∀ k rd, s.check.state ≠ .pending k id rd) : s.probeSent id = s := by
  unfold State.probeSent
  split
  · next n p r c hp _ =>
    rw [if_neg]
    rintro rfl
    exact h _ _ hp
  · rfl

end

theorem isUp_iff (o : Option Record) : isUp o = true ↔ ∃ r, o = some r ∧ r.link = .up := by
  cases o <;> simp [isUp]

theorem takeReflect_eq {s : State} {c : CheckRecord} {n e : Nat} {src : Addr} {body : List Byte}
    (hrec : s.check.record = some c) (hst : s.check.state = .outstanding n e) (hlen : 4 ≤ body.length)
    (hsrc : c.peer = src) (hn : natBE (body.take 4) = n) : s.takeReflect src body =
      State.probeSettled (s.check.live.reflected c.mode (differingBits (body.drop 4) (patternBytes c n))).2
        { s with check := { s.check with
            live := (s.check.live.reflected c.mode (differingBits (body.drop 4) (patternBytes c n))).1 } } := by
  rw [State.takeReflect, hst, hrec]
  exact if_pos ⟨hlen, hsrc, hn⟩

theorem takeReflect_other {s : State} {src : Addr} {body : List Byte}
    (h : ¬∃ c n e, s.check.record = some c ∧ s.check.state = .outstanding n e ∧ 4 ≤ body.length ∧ c.peer = src ∧
      natBE (body.take 4) = n) : s.takeReflect src body = s := by
  unfold State.takeReflect
  split
  · next n e c hst hrec =>
    exact if_neg fun ⟨hlen, hsrc, hn⟩ => h ⟨c, n, e, hrec, hst, hlen, hsrc, hn⟩
  · rfl

/-- The counters after a REFLECT that differs in `d` bits, each under the counter mode, and whether one has reached its
largest value (R154, R155). -/
theorem reflected_eq (mode : CounterMode) (d : Nat) (v : Counters) :
    let raised (top v n : Nat) : Nat := match mode with | .saturate => min top (v + n) | .wrap => (v + n) % (top + 1)
    v.reflected mode d =
      ({ sent := v.sent, returned := raised 4294967295 v.returned 1,
         errored := if d = 0 then v.errored else raised 4294967295 v.errored 1,
         bits := if d = 0 then v.bits else raised 65535 v.bits d,
         overflow := if mode = .wrap ∧ 65535 < v.bits + d then min 255 (v.overflow + 1) else v.overflow },
       decide (mode = .saturate ∧ (4294967295 ≤ v.returned + 1 ∨
         0 < d ∧ (4294967295 ≤ v.errored + 1 ∨ 65535 ≤ v.bits + d)))) := by
  intro raised
  rcases Nat.eq_zero_or_pos d with rfl | hd
  · cases mode <;> simp [Counters.reflected, raiseCounter, largest32, largest16, raised]
  · have hne : d ≠ 0 := Nat.ne_of_gt hd
    cases mode with
    | wrap => simp [Counters.reflected, raiseCounter, largest32, largest16, raised, hd, hne]
    | saturate =>
      simp [Counters.reflected, raiseCounter, largest32, largest16, raised, hd, hne, Bool.or_assoc]
      rfl

theorem bitCount_xor (a b : Byte) : bitCount (a ^^^ b) =
    (List.range 8).countP fun j => a.getLsbD j != b.getLsbD j := by
  rw [show List.range 8 = [0, 1, 2, 3, 4, 5, 6, 7] from rfl]
  simp only [bitCount, List.foldl_cons, List.foldl_nil, List.countP_cons, List.countP_nil, BitVec.getLsbD_xor,
    Bool.bne_eq_xor]
  omega

theorem differingBits_nil_left (l : List Byte) : differingBits [] l = 8 * l.length := by
  cases l <;> rfl

theorem differingBits_nil_right (l : List Byte) : differingBits l [] = 8 * l.length := by
  cases l <;> rfl

/-- Settles O51. -/
theorem probesAreReflectedAndCounted : Obligations.ProbesAreReflectedAndCounted := by
  unfold Obligations.ProbesAreReflectedAndCounted
  refine ⟨fun s k id rd c hp hrec => ?_, fun s id h => probeSent_ended fun k rd => h k rd, fun s i src body => ?_,
    fun s c n e src body hrec hst hlen hsrc hn => ?_, fun s src body h => takeReflect_other h,
    fun a b l m => ⟨differingBits_nil_left l, differingBits_nil_right l, ?_⟩,
    fun s f i body hstore hcheck => ⟨fun hk => ⟨?_, ?_⟩, fun hk slot => ?_⟩⟩
  · intro v out
    refine ⟨fun hm => ?_, fun hm hv => ?_, fun hm hv => ?_⟩
    · exact probeSent_counted hp hrec (by rw [hm]; rfl)
    · refine probeSent_counted hp hrec ?_
      rw [hm]
      exact Prod.ext (Nat.min_eq_right hv.le) (decide_eq_false (Nat.not_le.mpr hv))
    · have hfull : raiseCounter c.mode largest32 v.sent 1 = (4294967295, true) := by
        rw [hm]
        exact Prod.ext (Nat.min_eq_left hv) (decide_eq_true hv)
      obtain ⟨s1, hs1⟩ : ∃ s1 : State, s1 = { s with check := out 4294967295 } := ⟨_, rfl⟩
      have hrec1 : s1.check.record = some { c with lastEnd := some s.now } := by rw [hs1]
      have hst1 : s1.check.state ≠ .idle := by rw [hs1]; exact fun hx => nomatch hx
      have he : s.probeSent id = s1.endCheck .saturated := by rw [hs1]; exact probeSent_full hp hrec hfull
      have hend := endCheck_eq .saturated hst1 hrec1
      have hmade := (endCheck_running .saturated hst1 hrec1).2
      rw [he]
      subst hs1
      exact ⟨hend, hmade⟩
  · intro takes
    have hiff : (4 ≤ body.length ∧ isUp (s.rec? i) = true ∧ s.cfg.reflect = true ∧ s.tx.reflect = none) ↔ takes := by
      rw [isUp_iff]
    exact ⟨fun h => if_pos (hiff.mpr h), fun h => if_neg (mt hiff.mp h)⟩
  · rw [takeReflect_eq hrec hst hlen hsrc hn, reflected_eq] <;> rfl
  · rw [differingBits, bitCount_xor]
  · simp only [State.handBody, hk, hstore, hcheck]
    rfl
  · simp only [State.handBody, hk]
  · simp only [State.handBody, hk, hstore, hcheck]
    rfl

end Sys2Proof.Machine

/-! The loss of a link (R33 to R37), the timers of pairing and candidacy (R46, R58, R59). -/

namespace Sys2Proof.Machine

/-! ## The loss of a link (R36, R37) -/

/-- The record LOST with its NEIGHBOUR report: what a loss does before the other blocks hear of it. -/
def State.severed (i : Nat) (cause : LinkCause) (r : Record) (s : State) : State :=
  { State.putReport r.peer (some i) (.neighbour .lost cause (some .lost)) (s.setSlot i (some (r.lost s.cfg))) with
    workAvailable := true }

theorem severed_eq (i : Nat) (cause : LinkCause) (r : Record) (s : State) :
    ∃ q o n d, s.severed i cause r =
      { s with slots := s.slots.set i (some (r.lost s.cfg)), reports := q, overrun := o, serial := n, discards := d,
               workAvailable := true } := by
  obtain ⟨q, o, n, d, h⟩ := putReport_eq (s.setSlot i (some (r.lost s.cfg))) r.peer (some i)
    (.neighbour .lost cause (some .lost))
  exact ⟨q, o, n, d, by rw [State.severed, h]; rfl⟩

theorem severed_reported (i : Nat) (cause : LinkCause) (r : Record) (s : State) :
    State.Reported s (s.severed i cause r) r.peer (some i) (.neighbour .lost cause (some .lost)) :=
  putReport_reported (s.setSlot i (some (r.lost s.cfg))) _ _ _ fun hk => nomatch hk

theorem severed_links (i : Nat) (cause : LinkCause) (r : Record) (s : State) :
    State.LinkEnds s (s.severed i cause r) ((s.severed i cause r).announceLoss i r.peer) i r.peer := by
  have hlen : (s.severed i cause r).reports.length ≤ s.reports.length + 1 :=
    putReport_length (s.setSlot i (some (r.lost s.cfg))) _ _ _
  obtain ⟨_, _, _, _, he⟩ := severed_eq i cause r s
  rw [he] at hlen ⊢
  exact announceLoss_links r.peer rfl rfl rfl rfl rfl hlen

theorem lost_eligible (c : Settings) (r : Record) : (r.lost c).eligible = false := rfl

section
variable {s : State} {i : Nat} {r : Record}

theorem loseLink_up (cause : LinkCause) (h : s.rec? i = some r) (hl : r.link = .up) :
    s.loseLink i cause = ((s.severed i cause r).announceLoss i r.peer).ageCheck i := by
  rw [State.loseLink, h]
  exact if_pos hl

theorem loseLink_not_up (cause : LinkCause) (h : s.rec? i = some r) (hl : r.link ≠ .up) : s.loseLink i cause = s := by
  rw [State.loseLink, h]
  exact if_neg hl

theorem ageCheck_young (h : s.rec? i = some r) (ha : s.nowMs - r.lastHeard < 1000 * s.cfg.forget) :
    s.ageCheck i = s := by
  rw [State.ageCheck, h]
  refine if_neg fun hp => ?_
  rw [State.pastForget, Bool.and_eq_true, decide_eq_true_eq] at hp
  exact absurd hp.2 (Nat.not_le.mpr ha)

theorem pastForget_of_old (hl : r.link = .heard ∨ r.link = .lost) (ha : 1000 * s.cfg.forget ≤ s.nowMs - r.lastHeard) :
    s.pastForget r = true := by
  rw [State.pastForget, Bool.and_eq_true, Bool.or_eq_true, decide_eq_true_eq, decide_eq_true_eq, decide_eq_true_eq]
  exact ⟨hl, ha⟩

theorem ageCheck_old (h : s.rec? i = some r) (hl : r.link = .heard ∨ r.link = .lost)
    (ha : 1000 * s.cfg.forget ≤ s.nowMs - r.lastHeard) : s.ageCheck i = s.removeRecord i .aged := by
  rw [State.ageCheck, h]
  exact if_pos (pastForget_of_old hl ha)

/-- A record removed after a NEIGHBOUR report of its own: the report REMOVED stands, or both were discarded. -/
theorem removeRecord_reported_again {u : State} {slot : Option Nat} {ev : LinkEvent} {c cause : LinkCause}
    {l : Option LinkState} (h : u.rec? i = some r) (hrep : State.Reported s u r.peer slot (.neighbour ev c l)) :
    State.Reported s (u.removeRecord i cause) r.peer (some i) (.neighbour .removed cause none) := by
  have hempty : State.Reported s (u.setSlot i none) r.peer slot (.neighbour ev c l) := hrep
  have hvac : State.Reported s (u.vacated i cause r.peer) r.peer (some i) (.neighbour .removed cause none) :=
    hempty.again (slot' := some i) (b' := .neighbour .removed cause none) rfl fun hk => nomatch hk
  rw [removeRecord_eq cause h]
  split
  · exact announceLoss_keepsReports _ _ _ hvac (fun hk => nomatch hk) fun hk => nomatch hk
  · exact hvac.mono (reselect_keepsBut _) fun hk => nomatch hk

end

/-- What the loss of a link leaves as it was, with the work it makes available. -/
theorem severed_announced {s : State} {i : Nat} {r : Record} (cause : LinkCause) (h : s.rec? i = some r) :
    let u := (s.severed i cause r).announceLoss i r.peer
    (∀ j, u.rec? j = if j = i then some (r.lost s.cfg) else s.rec? j) ∧ u.fwd = s.fwd ∧ u.ring = s.ring ∧
      u.seen = s.seen ∧ u.host = s.host ∧ u.duty = s.duty ∧ u.free = s.free ∧ u.rx = s.rx ∧ u.draws = s.draws ∧
      u.workAvailable = true := by
  obtain ⟨_, _, _, _, hb⟩ := severed_eq i cause r s
  obtain ⟨_, _, _, _, _, _, _, _, _, he, hwork⟩ := announceLoss_eq (s.severed i cause r) i r.peer
  rw [he, hwork rfl, hb]
  exact ⟨(setSlot_rerecords h _).recs, rfl, rfl, rfl, rfl, rfl, rfl, rfl, rfl, rfl⟩

theorem exec_silenceLimitReached {s : State} {i : Nat} {r : Record} (h : s.inReset = false) (hr : s.rec? i = some r)
    (hl : r.link = .up) (hs : s.cfg.kSilence * r.advert.mode.interval ≤ r.silence / 1000) :
    exec (.silenceLimitReached i) s = .next (s.loseLink i .silent).finishLinks := by
  show execSilenceLimitReached i s = _
  rw [execSilenceLimitReached, unlessReset_eq _ h, hr]
  exact congrArg _ (if_pos ⟨hl, hs⟩)

/-- Settles O41. -/
theorem silenceLosesTheLink : Obligations.SilenceLosesTheLink := by
  unfold Obligations.SilenceLosesTheLink
  refine ⟨fun s i r h hr hl hs => ⟨_, exec_silenceLimitReached h hr hl hs, finish_ends _⟩,
    fun s i r cause hr => ⟨fun hl => loseLink_not_up cause hr hl, fun hl => ?_⟩⟩
  intro r' b
  have hlinks : State.LinkEnds s b (b.announceLoss i r.peer) i r.peer := severed_links i cause r s
  have hreported : State.Reported s (b.announceLoss i r.peer) r.peer (some i) (.neighbour .lost cause (some .lost)) :=
    announceLoss_keepsReports _ _ _ (severed_reported i cause r s) (fun hk => nomatch hk) fun hk => nomatch hk
  have hlose : s.loseLink i cause = (b.announceLoss i r.peer).ageCheck i := loseLink_up cause hr hl
  obtain ⟨hrecs, hfwd, hring, hseen, hhost, hduty, hfree, hrx, hdraws, hwork⟩ := severed_announced cause hr
  have hat : (b.announceLoss i r.peer).rec? i = some r' := (hrecs i).trans (if_pos rfl)
  have hcfg : (b.announceLoss i r.peer).cfg = s.cfg := cfg_congr hhost
  have hnow : (b.announceLoss i r.peer).nowMs = s.nowMs := nowMs_congr hhost
  refine ⟨_, hlinks, hat, lost_eligible s.cfg r, fun j hj => (hrecs j).trans (if_neg hj), hfwd, hring, hseen, hhost, hduty,
    hfree, hrx, hdraws, hwork, hreported, fun ha => ?_, fun ha => ?_⟩
  · rw [hlose, ageCheck_young hat (by rw [hcfg, hnow]; exact ha)]
  · have hage := ageCheck_old hat (.inr rfl) (by rw [hcfg, hnow]; exact ha)
    rw [hlose, hage]
    exact ⟨rfl, (removeRecord_rec? _ _ hat i).trans (if_pos rfl), removeRecord_reported_again (r := r') hat hreported⟩

/-! ## The timers of pairing (R37, R46, R58, R59) -/

section
variable {s : State} {i : Nat} {r : Record}

theorem exec_aged (h : s.inReset = false) (hr : s.rec? i = some r) (hl : r.link = .heard ∨ r.link = .lost)
    (ha : 1000 * s.cfg.forget ≤ s.nowMs - r.lastHeard) :
    exec (.aged i) s = .next (s.removeRecord i .aged).finishLinks := by
  show execAged i s = _
  rw [execAged, unlessReset_eq _ h, hr]
  exact congrArg _ (if_pos (pastForget_of_old hl ha))

theorem exec_initiationWaitExpiry {e : Nat} (h : s.inReset = false) (hr : s.rec? i = some r) (hw : r.initWait = some e)
    (he : e ≤ s.now) : exec (.initiationWaitExpiry i) s = .next (if s.candidate r then s.openOn i
      else s.setSlot i (some { r with initWait := none })).finishLinks := by
  show execInitiationWaitExpiry i s = _
  rw [execInitiationWaitExpiry, unlessReset_eq _ h, hr]
  exact congrArg _ (if_pos (by rw [hw]; exact reached_of_le he))

theorem failExchange_eq {x : Exchange} (hr : s.rec? i = some r) (hx : r.exch = some x) :
    s.failExchange i = s.toHeard i (if x.refusing then .refused else .timeout) offerHoldoff := by
  rw [State.failExchange, hr]
  dsimp only
  rw [hx]

theorem exec_exchangeTimeout {x : Exchange} (h : s.inReset = false) (hr : s.rec? i = some r) (hx : r.exch = some x)
    (he : x.timer ≤ s.now) : exec (.exchangeTimeout i) s =
      .next (s.toHeard i (if x.refusing then .refused else .timeout) offerHoldoff).finishLinks := by
  show execExchangeTimeout i s = _
  rw [execExchangeTimeout, unlessReset_eq _ h, ← failExchange_eq hr hx, hr, Option.bind_some, hx]
  exact congrArg _ (if_pos he)

theorem exec_offerHoldoffExpiry {e : Nat} (h : s.inReset = false) (hr : s.rec? i = some r) (hh : r.holdoff = some e)
    (he : e ≤ s.now) :
    exec (.offerHoldoffExpiry i) s = .next (s.setSlot i (some { r with holdoff := none })).finishLinks := by
  show execOfferHoldoffExpiry i s = _
  rw [execOfferHoldoffExpiry, unlessReset_eq _ h, hr]
  exact congrArg _ (if_pos (by rw [hh]; exact reached_of_le he))

theorem candidate_iff : s.candidate r = true ↔
    r.link = .heard ∧ s.station = .onAir ∧ s.upCount < 12 ∧ r.advert.room = true ∧ r.holdoff = none := by
  simp only [State.candidate, Bool.and_eq_true, decide_eq_true_eq, Option.isNone_iff_eq_none, and_assoc]

theorem assess_opens (hr : s.rec? i = some r) (hc : s.candidate r = true) (ha : s.cfg.address.toNat < r.peer.toNat) :
    s.assess i = s.openOn i := by
  rw [State.assess, hr]
  exact (if_pos hc).trans (if_pos ha)

theorem assess_waits (hr : s.rec? i = some r) (hc : s.candidate r = true) (ha : r.peer.toNat ≤ s.cfg.address.toNat) :
    s.assess i =
      if r.initWait.isNone then s.setSlot i (some { r with initWait := some (s.now + initiationTime) }) else s := by
  rw [State.assess, hr]
  exact (if_pos hc).trans (if_neg (Nat.not_lt.mpr ha))

/-- The wait of a record that is no candidate is discarded, if it has one. -/
theorem assess_discards (hr : s.rec? i = some r) (hc : ¬s.candidate r = true) :
    s.assess i = s.setSlot i (some { r with initWait := none }) := by
  rw [State.assess, hr]
  refine (if_neg hc).trans ?_
  cases hw : r.initWait with
  | some e => rfl
  | none =>
    have hself : { r with initWait := none } = r := by rw [← hw]
    rw [hself, setSlot_self s hr]
    rfl

end

theorem upCount_eq (s : State) :
    s.upCount = ((s.slots.filterMap id).filter fun r => decide (r.link = .up)).length := by
  unfold State.upCount
  induction s.slots with
  | nil => rfl
  | cons o l ih =>
    cases o with
    | none => rw [List.countP_cons_of_neg (by simp [isUp]), ih]; rfl
    | some r =>
      rw [List.filterMap_cons_some (f := id) (b := r) rfl]
      by_cases hu : r.link = .up
      · rw [List.countP_cons_of_pos (by simp [isUp, hu]), List.filter_cons_of_pos (by simp [hu]), List.length_cons, ih]
      · rw [List.countP_cons_of_neg (by simp [isUp, hu]), List.filter_cons_of_neg (by simp [hu]), ih]

/-- Settles O42. -/
theorem pairingTimersActOnTheirRecord : Obligations.PairingTimersActOnTheirRecord := by
  unfold Obligations.PairingTimersActOnTheirRecord
  refine ⟨fun s i r h hr => ⟨fun hl ha => ?_, fun e hw he hc => ?_, fun e hw he hc => ?_, fun x hx he hf => ?_,
      fun x hx he hf => ?_, fun e hh he => ?_⟩,
    fun s i r hr => ?_, fun s => ⟨fun i hn => ?_, rfl, upCount_eq s⟩⟩
  · exact ⟨_, exec_aged h hr hl ha, finish_ends _⟩
  · have hexec := exec_initiationWaitExpiry h hr hw he
    rw [if_pos hc] at hexec
    exact ⟨_, hexec, finish_ends _⟩
  · have hexec := exec_initiationWaitExpiry h hr hw he
    rw [if_neg (by rw [hc]; decide)] at hexec
    exact ⟨_, hexec, finish_ends _⟩
  · have hexec := exec_exchangeTimeout h hr hx he
    rw [if_neg (by rw [hf]; decide)] at hexec
    exact ⟨_, hexec, finish_ends _⟩
  · have hexec := exec_exchangeTimeout h hr hx he
    rw [if_pos hf] at hexec
    exact ⟨_, hexec, finish_ends _⟩
  · exact ⟨_, exec_offerHoldoffExpiry h hr hh he, finish_ends _⟩
  · intro fit
    have hiff : s.candidate r = true ↔ fit := candidate_iff
    refine ⟨hiff, fun hf ha => assess_opens hr (hiff.mpr hf) ha, fun hf ha => ⟨fun hw => ?_, fun hw => ?_⟩,
      fun hf => assess_discards hr (mt hiff.mp hf)⟩
    · rw [assess_waits hr (hiff.mpr hf) ha, hw]
      rfl
    · rw [assess_waits hr (hiff.mpr hf) ha, if_neg (by simpa using hw)]
  · rw [State.assess, hn]

end Sys2Proof.Machine

/-! The Offer Engine (chapter 03): the requests to the Table, and an exchange page by page. -/

namespace Sys2Proof.Machine

/-! ## Exchange parts written -/

section
variable {s : State} {i : Nat} {r : Record}

theorem modExch_eq {x : Exchange} (h : s.rec? i = some r) (hx : r.exch = some x) (f : Exchange → Exchange) :
    s.modExch i f = s.withExch i r (f x) := by
  rw [State.modExch, modRec_eq s _ h, hx]
  rfl

theorem withExch_at (h : s.rec? i = some r) (a : Record) (x : Exchange) :
    (s.withExch i a x).rec? i = some { a with exch := some x } := by
  rw [State.withExch, rec?_setSlot s i i _ (rec?_lt s h), if_pos rfl]

theorem withExch_withExch (a b : Record) (x y : Exchange) (hb : b = { a with exch := some x }) :
    (s.withExch i a x).withExch i b y = s.withExch i a y := by
  rw [State.withExch, State.withExch, setSlot_setSlot, hb]
  rfl

/-- A page made ready on a record with an exchange part. -/
theorem readyPage_eq {x : Exchange} (h : s.rec? i = some r) (hx : r.exch = some x) (n : Nat) :
    s.readyPage i n = s.withPage i r x n := by
  rw [State.readyPage, modExch_eq h hx]
  rfl

/-- A page made ready where the exchange part has just been written. -/
theorem readyPage_withExch (h : s.rec? i = some r) (a : Record) (x : Exchange) (n : Nat) :
    (s.withExch i a x).readyPage i n = s.withPage i a x n := by
  rw [readyPage_eq (withExch_at h a x) rfl]
  unfold State.withPage
  rw [withExch_withExch a _ x _ rfl]
  rfl

theorem beginExchange_eq (h : s.rec? i = some r) (x : Exchange) : s.beginExchange i x =
    { s.withExch i { r with link := .offering, holdoff := none, initWait := none } x with workAvailable := true } := by
  rw [State.beginExchange, modRec_eq s _ h]
  rfl

/-- A record enters OFFERING with its first page ready. -/
theorem beginExchange_readyPage (h : s.rec? i = some r) (x : Exchange) (n : Nat) : (s.beginExchange i x).readyPage i n =
    s.withPage i { r with link := .offering, holdoff := none, initWait := none } x n := by
  rw [beginExchange_eq h]
  have hat : State.rec? { s.withExch i { r with link := .offering, holdoff := none, initWait := none } x with
      workAvailable := true } i = some { r with link := .offering, exch := some x, holdoff := none, initWait := none } :=
    withExch_at h { r with link := .offering, holdoff := none, initWait := none } x
  rw [readyPage_eq hat rfl]
  unfold State.withPage State.withExch State.setSlot
  simp only [List.set_set]
  rfl

end

/-! ## The requests to the Table (R32, R45, R47, R60) -/

section
variable {s : State} {i : Nat} {r : Record}

/-- The exchange of a PROPOSER that opens (R47). -/
theorem openOn_eq (h : s.rec? i = some r) : s.openOn i =
    State.withPage { s with draws := s.draws + 1 } i { r with link := .offering, holdoff := none, initWait := none }
      (Exchange.fresh .proposer false (Config.draw s.draws % 65536) (s.now + exchangeTime)) 0 :=
  beginExchange_readyPage (s := { s with draws := s.draws + 1 }) h _ 0

/-- A record whose exchange has failed: HEARD, with a holdoff in µs, 0 meaning it has ended at once (R32, R55). -/
def Record.returned (now hold : Nat) (r : Record) : Record :=
  { r with link := .heard, exch := none, initWait := none, holdoff := if hold = 0 then none else some (now + hold) }

/-- The record returned to HEARD with its report, before its age is looked at (R32, R37). -/
def State.failed (i : Nat) (cause : LinkCause) (hold : Nat) (r : Record) (s : State) : State :=
  { State.putReport r.peer (some i) (.neighbour .heard cause (some .heard))
      (s.setSlot i (some (r.returned s.now hold))) with
    workAvailable := true }

theorem toHeard_eq (h : s.rec? i = some r) (cause : LinkCause) (hold : Nat) :
    s.toHeard i cause hold = (s.failed i cause hold r).ageCheck i := by
  rw [State.toHeard, h]
  rfl

theorem failed_rerecords (h : s.rec? i = some r) (cause : LinkCause) (hold : Nat) :
    s.Rerecords (s.failed i cause hold r) i (r.returned s.now hold) := by
  have hput := (setSlot_rerecords h (r.returned s.now hold)).putReport r.peer (some i)
    (.neighbour .heard cause (some .heard))
  exact ⟨hput.recs, hput.host, hput.duty, hput.check, hput.relayed⟩

theorem failed_reported (cause : LinkCause) (hold : Nat) :
    State.Reported s (s.failed i cause hold r) r.peer (some i) (.neighbour .heard cause (some .heard)) :=
  putReport_reported (s.setSlot i (some (r.returned s.now hold))) _ _ _ fun hk => nomatch hk

/-- The record UP with its report (R60), before its costs are recomputed. -/
def State.completed (i : Nat) (x : Exchange) (r : Record) (s : State) : State :=
  { State.putReport r.peer (some i) (.neighbour .up .none (some .up)) (s.setSlot i (some (r.reachedUp s.cfg x))) with
    workAvailable := true }

theorem requestUp_refused {x : Exchange} (h : s.rec? i = some r) (hx : r.exch = some x) (hc : 12 ≤ s.upCount) :
    s.requestUp i = s.toHeard i .refused offerHoldoff := by
  rw [State.requestUp, h]
  dsimp only
  rw [hx]
  exact if_neg (Nat.not_lt.mpr hc)

theorem requestUp_granted {x : Exchange} (h : s.rec? i = some r) (hx : r.exch = some x) (hc : s.upCount < 12) :
    s.requestUp i = (s.completed i x r).recost i := by
  rw [State.requestUp, h]
  dsimp only
  rw [hx]
  exact if_pos hc

theorem completed_rerecords (h : s.rec? i = some r) (x : Exchange) :
    s.Rerecords (s.completed i x r) i (r.reachedUp s.cfg x) := by
  have hput := (setSlot_rerecords h (r.reachedUp s.cfg x)).putReport r.peer (some i) (.neighbour .up .none (some .up))
  exact ⟨hput.recs, hput.host, hput.duty, hput.check, hput.relayed⟩

theorem completed_reported (x : Exchange) :
    State.Reported s (s.completed i x r) r.peer (some i) (.neighbour .up .none (some .up)) :=
  putReport_reported (s.setSlot i (some (r.reachedUp s.cfg x))) _ _ _ fun hk => nomatch hk

/-- The costed record written in place of the one that reached UP: the report does not read the slots. -/
theorem completed_setSlot (x : Exchange) (q : Record) : (s.completed i x r).setSlot i (some q) =
    { State.putReport r.peer (some i) (.neighbour .up .none (some .up)) (s.setSlot i (some q)) with
      workAvailable := true } := by
  have hput := putReport_setSlot (s.setSlot i (some (r.reachedUp s.cfg x))) i (some q) r.peer (some i)
    (.neighbour .up .none (some .up))
  rw [setSlot_setSlot] at hput
  rw [hput]
  rfl

theorem reselects_of_completed {t : State} {x : Exchange} {q : Record} (hs : State.Reselects 0 (s.completed i x r) t i
    (r.reachedUp s.cfg x) q) : State.Reselects 1 s t i r q := by
  have hmade : (s.completed i x r).reports.length ≤ s.reports.length + 1 :=
    putReport_length (s.setSlot i (some (r.reachedUp s.cfg x))) _ _ _
  obtain ⟨_, _, _, _, hput⟩ := putReport_eq (s.setSlot i (some (r.reachedUp s.cfg x))) r.peer (some i)
    (.neighbour .up .none (some .up))
  refine hs.of_base rfl rfl (fun o => ?_) ?_ ?_ hmade <;> rw [State.completed, hput]
  · exact List.set_set _
  · rfl
  · rfl

theorem recost_keepsBut (h : s.rec? i = some r) : s.KeepsBut (s.recost i) .route := by
  rcases recost_eq s h with ⟨he, -⟩ | he <;> rw [he]
  · exact .rfl
  · exact reselect_keepsBut (s.setSlot i (some (r.costed s.cfg)))

theorem recost_same (h : s.rec? i = some r)
    (hs : (r.costed s.cfg).pathCost = r.pathCost ∧ (r.costed s.cfg).eligible = r.eligible) :
    s.recost i = s.setSlot i (some (r.costed s.cfg)) := by
  rw [State.recost, h]
  exact if_pos hs

theorem recost_changed (h : s.rec? i = some r)
    (hs : ¬((r.costed s.cfg).pathCost = r.pathCost ∧ (r.costed s.cfg).eligible = r.eligible)) :
    s.recost i = (s.setSlot i (some (r.costed s.cfg))).reselect := by
  rw [State.recost, h]
  exact if_neg hs

theorem recost_rec? (h : s.rec? i = some r) (j : Nat) :
    (s.recost i).rec? j = if j = i then some (r.costed s.cfg) else s.rec? j := by
  have hw : s.Rewritten (s.recost i) i (r.costed s.cfg) := by
    rcases recost_eq s h with ⟨he, -⟩ | he
    · exact .inl he
    · exact .inr he
  exact (hw.rerecords h).recs j

end

/-- Settles O43. -/
theorem tableGrantsAndRefusesRequests : Obligations.TableGrantsAndRefusesRequests := by
  unfold Obligations.TableGrantsAndRefusesRequests
  refine fun s i r hr => ⟨⟨_, openOn_eq hr, rfl⟩, fun cause hold => ?_, fun x hx hc => requestUp_refused hr hx hc,
    fun x hx hc => ?_⟩
  · intro heard u
    have hu : s.toHeard i cause hold = u.ageCheck i := toHeard_eq hr cause hold
    have hrec : s.Rerecords u i heard := failed_rerecords hr cause hold
    have hrep : State.Reported s u r.peer (some i) (.neighbour .heard cause (some .heard)) := failed_reported cause hold
    have hcfg : u.cfg = s.cfg := cfg_congr hrec.host
    have hnow : u.nowMs = s.nowMs := nowMs_congr hrec.host
    refine ⟨fun ha => ⟨?_, hrec.at, fun j hj => (hrec.recs j).trans (if_neg hj), hrep⟩, fun ha => ?_⟩
    · rw [hu, ageCheck_young hrec.at (by rw [hcfg, hnow]; exact ha)]
    · rw [hu, ageCheck_old hrec.at (.inl rfl) (by rw [hcfg, hnow]; exact ha)]
      exact ⟨rfl, (removeRecord_rec? _ _ hrec.at i).trans (if_pos rfl)⟩
  · refine ⟨termsOf s.cfg x, ?_⟩
    intro r' u same
    have hrec := completed_rerecords hr x
    have hcfg : (s.completed i x r).cfg = s.cfg := cfg_congr hrec.host
    have hr' : (r.reachedUp s.cfg x).costed (s.completed i x r).cfg = r' := by rw [hcfg]; rfl
    have hgrant := requestUp_granted hr hx hc
    have hrecost := recost_rec? hrec.at
    have hsel := reselects_of_completed (recost_reselects hrec.at)
    rw [hr'] at hrecost hsel
    rw [hgrant]
    refine ⟨fun hs => ?_, fun hs => ?_, (hrecost i).trans (if_pos rfl), fun q hq => ?_, fun v hv => ?_, fun v hv => ?_,
      fun hv => ?_, fun hv => ?_, fun j hj => ?_, (completed_reported x).mono (recost_keepsBut hrec.at) (fun hk => nomatch hk),
      hsel⟩
    · rw [recost_same hrec.at (by rw [hr']; exact hs), hr', completed_setSlot]
    · rw [recost_changed hrec.at (by rw [hr']; exact hs), hr', completed_setSlot]
    · rw [termsOf, hq]
      exact ⟨rfl, rfl⟩
    · simp only [termsOf, hv]
      rfl
    · simp only [termsOf, hv]
      rfl
    · simp only [termsOf, hv]
      rfl
    · simp only [termsOf, hv]
      exact Nat.max_eq_left (Nat.zero_le _)
    · exact ((hrecost j).trans (if_neg hj)).trans ((hrec.recs j).trans (if_neg hj))

end Sys2Proof.Machine

/-! The Offer Engine (chapter 03), continued: what it does with a page, and an exchange page by page. -/

namespace Sys2Proof.Machine

/-! ## Answering a PROPOSER OPEN (R50, R56) -/

/-- A record that enters OFFERING (R32). -/
def Record.offering (r : Record) : Record := { r with link := .offering, holdoff := none, initWait := none }

/-- The exchange of an ANSWERER that has taken a PROPOSER OPEN (R50). -/
def Exchange.answering (w n : Word16) (cap : Nat) (refl : Bool) (terms timer : Nat) : Exchange :=
  { role := .answerer, phase := .awaitingPages, refusing := false, ownNonce := w,
    peer := some { nonce := n, rateCap := cap, reflect := refl }, nextPage := 0, ownCount := 2, expected := terms,
    lastPage := some 0, maxPayload := none, pace := none, timer := timer, page := none }

/-- The nonce this station draws next (log 5). -/
def State.nextNonce (s : State) : Word16 := BitVec.ofNat 16 (Config.draw s.draws % 65536)

section
variable {s : State} {i : Nat} {r : Record} {n : Word16} {cap terms : Nat} {refl : Bool}

theorem answerOrRefuse_more (h : s.rec? i = some r) (hc : s.upCount < 12) (ht : 0 < terms) :
    s.answerOrRefuse i n cap refl terms =
      { State.withExch { s with draws := s.draws + 1 } i r.offering
          (.answering s.nextNonce n cap refl terms (s.now + 2000000)) with workAvailable := true } := by
  rw [State.answerOrRefuse, if_pos hc, State.answer]
  simp only [if_neg (Nat.ne_of_gt ht)]
  exact beginExchange_eq (s := { s with draws := s.draws + 1 }) h _

theorem answerOrRefuse_last (h : s.rec? i = some r) (hc : s.upCount < 12) (ht : terms = 0) :
    s.answerOrRefuse i n cap refl terms =
      State.withPage { s with draws := s.draws + 1 } i r.offering
        (.answering s.nextNonce n cap refl terms (s.now + 2000000)) 0 := by
  rw [State.answerOrRefuse, if_pos hc, State.answer]
  simp only [if_pos ht]
  exact beginExchange_readyPage (s := { s with draws := s.draws + 1 }) h _ 0

theorem answerOrRefuse_full (h : s.rec? i = some r) (hc : 12 ≤ s.upCount) :
    s.answerOrRefuse i n cap refl terms =
      State.withPage { s with draws := s.draws + 1 } i r.offering
        { Exchange.answering s.nextNonce n cap refl terms (s.now + 2000000) with
          refusing := true, ownCount := 0, expected := 0 } 0 := by
  rw [State.answerOrRefuse, if_neg (Nat.not_lt.mpr hc), State.refuse]
  exact beginExchange_readyPage (s := { s with draws := s.draws + 1 }) h _ 0

end

/-! ## What a page meets, by the link state (R49) -/

section
variable {s : State} {i : Nat} {r : Record}

theorem takePage_heard_open {refuse refl : Bool} {n : Word16} {cap terms : Nat} (h : s.rec? i = some r)
    (hl : r.link = .heard) : s.takePage i (.opening .proposer refuse n cap refl terms) =
      (s.answerOrRefuse i n cap refl terms, true) := by
  simp only [State.takePage, h, hl]

theorem takePage_offering_term {x : Exchange} (h : s.rec? i = some r) (hl : r.link = .offering) (hx : r.exch = some x)
    (number kind value : Nat) :
    s.takePage i (.term number kind value) = State.takePage.offeringTerm i s x number kind value := by
  simp only [State.takePage, h, hl, hx]

theorem takePage_offering_open {x : Exchange} (h : s.rec? i = some r) (hl : r.link = .offering) (hx : r.exch = some x)
    (role : Role) (refuse : Bool) (n : Word16) (cap : Nat) (refl : Bool) (terms : Nat) :
    s.takePage i (.opening role refuse n cap refl terms) =
      State.takePage.offeringOpen i s x role refuse n cap refl terms := by
  simp only [State.takePage, h, hl, hx]

/-- An OPEN that repeats the last page taken (R49). -/
theorem offeringOpen_repeat {x : Exchange} {n : Word16} (role : Role) (refuse : Bool) (cap : Nat) (refl : Bool)
    (terms : Nat) (h : x.lastPage = some 0 ∧ x.peer.map PeerOpen.nonce = some n) :
    State.takePage.offeringOpen i s x role refuse n cap refl terms = (s, true) := if_pos h

section
variable {x : Exchange} {n : Word16} {refuse refl : Bool} {cap terms : Nat}
  (hother : ¬(x.lastPage = some 0 ∧ x.peer.map PeerOpen.nonce = some n))
include hother

/-- The ANSWERER OPEN a PROPOSER waits for, or meets while still sending (R49, R52, R57). -/
theorem offeringOpen_answered (hrole : x.role = .proposer) :
    State.takePage.offeringOpen i s x .answerer refuse n cap refl terms =
      if refuse then (s.toHeard i .refused offerHoldoff, true)
      else if x.phase = .sendingPages ∨ x.peer = none then
        (s.progress i { (x.applyOpen n cap refl terms) with phase := .awaitingPages, page := none }, true)
      else (s, false) := by
  unfold State.takePage.offeringOpen
  rw [if_neg hother, hrole]

/-- Crossing OPENs (R53 to R55). -/
theorem offeringOpen_crossing (hrole : x.role = .proposer) :
    State.takePage.offeringOpen i s x .proposer refuse n cap refl terms =
      if n.toNat < x.ownNonce.toNat then (s, false)
      else if x.ownNonce.toNat < n.toNat then
        (s.progress i { (x.applyOpen n cap refl terms) with
                          role := .answerer, phase := .awaitingPages, page := none, nextPage := 0 }, true)
      else ((s.drawBelow 1001).2.toHeard i .tie (ms (s.drawBelow 1001).1), false) := by
  unfold State.takePage.offeringOpen
  rw [if_neg hother, hrole]

/-- A PROPOSER OPEN at an ANSWERER: another page, or a peer that has begun afresh (R49, R61). -/
theorem offeringOpen_afresh (hrole : x.role = .answerer) :
    State.takePage.offeringOpen i s x .proposer refuse n cap refl terms =
      if x.peer.map PeerOpen.nonce = some n then (s, false) else (s.answerOrRefuse i n cap refl terms, true) := by
  unfold State.takePage.offeringOpen
  rw [if_neg hother, hrole]

theorem offeringOpen_answerers (hrole : x.role = .answerer) :
    State.takePage.offeringOpen i s x .answerer refuse n cap refl terms = (s, false) := by
  unfold State.takePage.offeringOpen
  rw [if_neg hother, hrole]

end

end

/-- Settles O44. -/
theorem offerEngineClassifiesPages : Obligations.OfferEngineClassifiesPages := by
  unfold Obligations.OfferEngineClassifiesPages
  refine fun s i r x n cap terms k v refuse refl hr => ⟨fun hl => ⟨s.nextNonce, rfl, fun hc ht => ?_, fun hc ht => ?_,
      fun hc => ?_⟩, fun hl => ⟨?_, ?_⟩, fun hl => ⟨?_, ?_, ?_⟩,
    fun hl hx => ⟨fun role q hlast hq hn => ?_, fun hlast => ?_, fun hrole hpeer hlow => ?_, fun hrole hpeer => ?_⟩⟩
  · rw [takePage_heard_open hr hl, answerOrRefuse_more hr hc ht]
    rfl
  · rw [takePage_heard_open hr hl, answerOrRefuse_last hr hc ht]
    rfl
  · rw [takePage_heard_open hr hl, answerOrRefuse_full hr hc]
    rfl
  · simp only [State.takePage, hr, hl]
  · simp only [State.takePage, hr, hl]
  · simp only [State.takePage, hr, hl]
  · simp only [State.takePage, hr, hl]
  · simp only [State.takePage, hr, hl]
  · rw [takePage_offering_open hr hl hx]
    exact offeringOpen_repeat role refuse cap refl terms ⟨hlast, by rw [hq, Option.map_some, hn]⟩
  · rw [takePage_offering_term hr hl hx]
    exact if_pos hlast
  · rw [takePage_offering_open hr hl hx, offeringOpen_crossing (by simp [hpeer]) hrole, if_pos hlow]
  · rw [takePage_offering_open hr hl hx, offeringOpen_answered (by simp [hpeer]) hrole, if_pos rfl]
    rfl

/-! ## The next step of an exchange (R45, R48, R51, R52) -/

section
variable {s : State} {i : Nat} {r : Record} {x : Exchange} (h : s.rec? i = some r) (hx : r.exch = some x)
include h hx

theorem progress_eq (y : Exchange) :
    s.progress i y = (s.withExch i r { y with timer := s.now + exchangeTime }).pagesApplied i y := by
  rw [State.progress, modExch_eq h hx]

theorem progress_more {y : Exchange} (he : 0 < y.expected) :
    s.progress i y = s.withExch i r { y with timer := s.now + exchangeTime } := by
  rw [progress_eq h hx]
  exact if_neg (Nat.ne_of_gt he)

theorem progress_proposer {y : Exchange} (he : y.expected = 0) (hrole : y.role = .proposer) :
    s.progress i y = (s.withExch i r { y with timer := s.now + exchangeTime }).requestUp i := by
  rw [progress_eq h hx, State.pagesApplied, if_pos he, hrole]

theorem progress_answerer {y : Exchange} (he : y.expected = 0) (hrole : y.role = .answerer) :
    s.progress i y = s.withPage i r { y with timer := s.now + exchangeTime } 0 := by
  rw [progress_eq h hx, State.pagesApplied, if_pos he, hrole]
  exact readyPage_withExch h r _ 0

end

section
variable {s : State} {i : Nat} {r : Record} {x : Exchange} {number kind value : Nat}

theorem offeringTerm_next (hf : x.refusing = false) (hp : x.phase = .awaitingPages) (hl : x.lastPage = some number)
    (he : 0 < x.expected) : State.takePage.offeringTerm i s x (number + 1) kind value =
      (s.progress i (x.applyTerm (number + 1) kind value), true) := by
  unfold State.takePage.offeringTerm
  rw [if_neg (by rw [hl]; simp), if_neg (by rw [hf]; decide), if_pos ⟨hp, he, hl⟩]

/-- Any other TERM page: acknowledged by a refusing record, disregarded by another (R49, R56). -/
theorem offeringTerm_other (hl : x.lastPage ≠ some number)
    (hn : ¬(x.phase = .awaitingPages ∧ 0 < x.expected ∧ x.lastPage = some (number - 1))) :
    State.takePage.offeringTerm i s x number kind value = (s, x.refusing) := by
  unfold State.takePage.offeringTerm
  rw [if_neg hl]
  cases hf : x.refusing with
  | true => rfl
  | false => exact (if_neg Bool.false_ne_true).trans (if_neg hn)

end

/-! ## Own pages returned (R48, R51, R56) -/

/-- An exchange whose own page `number` has been acknowledged. -/
def Exchange.acked (number now : Nat) (x : Exchange) : Exchange :=
  { x with page := none, nextPage := number + 1, timer := now + exchangeTime }

section
variable {s : State} {i : Nat} {r : Record} {x : Exchange} {p : Page} {id : Nat} (h : s.rec? i = some r)
  (hx : r.exch = some x)
include h hx

theorem pendingPage_eq (hp : x.page = some p) (hid : p.id = id) : s.pendingPage i id = some (r, x, p) := by
  unfold State.pendingPage
  rw [h]
  dsimp only
  rw [hx]
  dsimp only
  rw [hp]
  exact if_pos hid

theorem pendingPage_none (hp : ∀ p, x.page = some p → p.id ≠ id) : s.pendingPage i id = none := by
  unfold State.pendingPage
  rw [h]
  dsimp only
  rw [hx]
  dsimp only
  split
  · next p hp' => exact if_neg (hp p hp')
  · rfl

/-- An own page acknowledged: the page gone, the next one in turn, the timer restarted (R48, R58). -/
theorem pageAcked_eq (hp : x.page = some p) (hid : p.id = id) :
    s.pageAcked i id =
      if p.number + 1 ≤ x.ownCount then (s.withExch i r (x.acked p.number s.now)).readyPage i (p.number + 1)
      else match x.role with
        | .proposer => (s.withExch i r (x.acked p.number s.now)).modExch i fun x => { x with phase := .awaitingPages }
        | .answerer =>
          if x.refusing then (s.withExch i r (x.acked p.number s.now)).toHeard i .refused offerHoldoff
          else (s.withExch i r (x.acked p.number s.now)).requestUp i := by
  have hmod : s.modExch i (fun x => { x with page := none, nextPage := p.number + 1, timer := s.now + exchangeTime }) =
      s.withExch i r (x.acked p.number s.now) := modExch_eq h hx _
  rw [State.pageAcked, pendingPage_eq h hx hp hid]
  dsimp only
  rw [hmod] <;> cases x.role <;> rfl

end

/-! ## OFFER bodies (R44, R49, R170) -/

theorem handBody_offer {f : RxFrame} (hk : f.header.kind = .offer) (slot : Option Nat) (body : List Byte) (s : State) :
    s.handBody f slot body = s.offerBody f slot body := by
  simp only [State.handBody, hk]

theorem natBE_two (a b : Byte) : natBE [a, b] = a.toNat * 256 + b.toNat := by
  simp [natBE]

theorem natBE_take_two {body : List Byte} {k : Nat} (h : k + 1 < body.length) :
    natBE ((body.drop k).take 2) = byteAt body k * 256 + byteAt body (k + 1) := by
  rw [List.drop_eq_getElem_cons (by omega), List.drop_eq_getElem_cons h]
  simp only [List.take_succ_cons, List.take_zero, natBE_two, byteAt, List.getD_eq_getElem _ _ h,
    List.getD_eq_getElem _ _ (Nat.lt_of_succ_lt h)]

theorem isYes_iff (n : Nat) : isYes n = true ↔ n ≠ 0 := decide_eq_true_iff

theorem byteAt_lt (body : List Byte) (i : Nat) : byteAt body i < 256 := (body.getD i 0).isLt

theorem parseOffer_none_iff (body : List Byte) : parseOffer body = none ↔
    3 < byteAt body 0 ∨
      byteAt body 0 = 0 ∧ (body.length ≠ 10 ∨ 1 < byteAt body 1 ∨ 7 < byteAt body 5 ∨ 3 < byteAt body 7) ∨
      1 ≤ byteAt body 0 ∧ byteAt body 0 ≤ 3 ∧ body.length ≠ 6 := by
  unfold parseOffer
  split
  · split
    · simp only [reduceCtorEq, false_iff]
      omega
    · simp only [true_iff]
      omega
  · split
    · simp only [reduceCtorEq, false_iff]
      omega
    · simp only [true_iff]
      omega

theorem parsedOffer_opening {body : List Byte} {role : Role} {refuse refl : Bool} {n : Word16} {cap terms : Nat}
    (h : parseOffer body = some (.opening role refuse n cap refl terms)) :
    byteAt body 0 = 0 ∧ byteAt body 1 = role.code ∧ (refuse = true ↔ byteAt body 2 ≠ 0) ∧
      n.toNat = byteAt body 3 * 256 + byteAt body 4 ∧ cap = byteAt body 5 ∧ (refl = true ↔ byteAt body 6 ≠ 0) ∧
      terms = byteAt body 7 := by
  unfold parseOffer at h
  split at h
  · next h0 =>
    split at h
    · next hc =>
      cases h
      obtain ⟨hlen, hrole, -⟩ := hc
      have h3 := byteAt_lt body 3
      have h4 := byteAt_lt body 4
      refine ⟨h0, ?_, isYes_iff _, ?_, rfl, isYes_iff _, rfl⟩
      · split
        · next h1 => exact h1
        · exact show byteAt body 1 = 1 by omega
      · have hnonce : natBE ((body.drop 3).take 2) = byteAt body 3 * 256 + byteAt body 4 := natBE_take_two (by omega)
        rw [hnonce, BitVec.toNat_ofNat]
        exact Nat.mod_eq_of_lt (by omega)
    · cases h
  · split at h <;> cases h

theorem parsedOffer_term {body : List Byte} {number kind v : Nat} (h : parseOffer body = some (.term number kind v)) :
    byteAt body 0 ≠ 0 ∧ number = byteAt body 0 ∧ kind = byteAt body 1 ∧
      v = byteAt body 2 * 256 + byteAt body 3 := by
  unfold parseOffer at h
  split at h
  · split at h <;> cases h
  · next h0 =>
    split at h
    · next hc =>
      cases h
      exact ⟨h0, rfl, rfl, natBE_take_two (by omega)⟩
    · cases h

/-- Settles O45. -/
theorem exchangesRunToTheirEnd : Obligations.ExchangesRunToTheirEnd := by
  unfold Obligations.ExchangesRunToTheirEnd
  refine ⟨fun s i r x hr hl hx => ?_, fun c x => ⟨rfl, rfl, rfl⟩, fun s f i body page hk hstore hcheck => ?_,
    fun body => ⟨parseOffer_none_iff body, fun role refuse n cap refl terms hp => ?_, fun number kind v hp => ?_⟩⟩
  · intro now
    refine ⟨fun k kind v hf hp hlast => ?_, fun n kind v hn hlast => ?_, fun refuse n cap refl terms hrole hother => ?_,
      fun q refuse n cap refl terms hrole hq => ?_, fun p id hp hid => ?_, fun id hp => ?_⟩
    · intro y
      rw [takePage_offering_term hr hl hx]
      refine ⟨fun he => ?_, fun he hrole => ?_, fun he hrole => ?_, fun he => ?_⟩
      · rw [offeringTerm_next hf hp hlast (by omega), progress_more hr hx (Nat.sub_pos_of_lt he)]
        rfl
      · rw [offeringTerm_next hf hp hlast (by omega), progress_answerer hr hx (y := x.applyTerm (k + 1) kind v)
          (Nat.sub_eq_zero_of_le he.le) hrole]
        rfl
      · rw [offeringTerm_next hf hp hlast (by omega), progress_proposer hr hx (y := x.applyTerm (k + 1) kind v)
          (Nat.sub_eq_zero_of_le he.le) hrole]
        rfl
      · rw [offeringTerm_other (by rw [hlast]; simp) (fun hc => absurd hc.2.1 (by omega)), hf]
    · rw [takePage_offering_term hr hl hx]
      refine ⟨fun hf => ?_, fun hf hp => ?_⟩
      · unfold State.takePage.offeringTerm
        rw [if_neg hlast, if_pos hf]
      · rw [offeringTerm_other hlast (fun hc => hp.elim (fun h1 => ?_) fun h2 => h2 hc.2.2), hf]
        rw [hc.1] at h1
        cases h1
    · intro y z
      have hmet : ¬(x.lastPage = some 0 ∧ x.peer.map PeerOpen.nonce = some n) := by
        rintro ⟨h0, hn⟩
        rcases hother with hnone | hlast | ⟨q, hq, hne⟩
        · rw [hnone] at hn
          cases hn
        · exact hlast h0
        · rw [hq] at hn
          exact hne (Option.some.inj hn)
      obtain ⟨taken, htaken⟩ : ∃ a : Exchange,
        a = { (x.applyOpen n cap refl terms) with phase := .awaitingPages, page := none } := ⟨_, rfl⟩
      obtain ⟨yielded, hyielded⟩ : ∃ a : Exchange, a = { (x.applyOpen n cap refl terms) with
        role := .answerer, phase := .awaitingPages, page := none, nextPage := 0 } := ⟨_, rfl⟩
      have hy : { taken with timer := s.now + exchangeTime } = y := by rw [htaken]; rfl
      have hz : { yielded with timer := s.now + exchangeTime } = z := by rw [hyielded]; rfl
      have hmore : taken.expected = terms ∧ taken.role = .proposer ∧ yielded.expected = terms ∧
          yielded.role = .answerer := by
        rw [htaken, hyielded]
        exact ⟨rfl, hrole, rfl, rfl⟩
      obtain ⟨htterms, htrole, hyterms, hyrole⟩ := hmore
      have hanswer (refuse : Bool) := (takePage_offering_open hr hl hx .answerer refuse n cap refl terms).trans
        (offeringOpen_answered hmet hrole)
      have hcross := (takePage_offering_open hr hl hx .proposer refuse n cap refl terms).trans
        (offeringOpen_crossing hmet hrole)
      rw [← htaken] at hanswer
      rw [← hyielded] at hcross
      refine ⟨hanswer true, fun hp => ⟨fun ht => ?_, fun ht => ?_⟩, fun hp hq => ?_, fun hlow => ?_,
        fun hhigh => ⟨fun ht => ?_, fun ht => ?_⟩, fun heq => ⟨Config.draw s.draws % 1001, ?_, ?_⟩⟩
      · rw [hanswer, if_neg Bool.false_ne_true, if_pos hp, progress_more hr hx (by rw [htterms]; exact ht), hy]
      · rw [hanswer, if_neg Bool.false_ne_true, if_pos hp, progress_proposer hr hx (by rw [htterms]; exact ht) htrole, hy]
      · rw [hanswer, if_neg Bool.false_ne_true, if_neg]
        rintro (h1 | h1)
        · rw [hp] at h1
          cases h1
        · exact hq h1
      · rw [hcross, if_pos hlow]
      · rw [hcross, if_neg (by omega), if_pos hhigh, progress_more hr hx (by rw [hyterms]; exact ht), hz]
      · rw [hcross, if_neg (by omega), if_pos hhigh, progress_answerer hr hx (by rw [hyterms]; exact ht) hyrole, hz]
      · have := Nat.mod_lt (Config.draw s.draws) (show 0 < 1001 by decide)
        omega
      · rw [hcross, if_neg (by rw [heq]; omega), if_neg (by rw [heq]; omega)]
        rfl
    · have hmet (hne : q.nonce ≠ n ∨ x.lastPage ≠ some 0) :
          ¬(x.lastPage = some 0 ∧ x.peer.map PeerOpen.nonce = some n) := by
        rw [hq]
        rintro ⟨h0, hn⟩
        exact hne.elim (fun h1 => h1 (Option.some.inj hn)) fun h1 => h1 h0
      refine ⟨fun hn hlast => ?_, fun hne => ?_, fun hne => ⟨s.nextNonce, ?_⟩⟩
      · rw [takePage_offering_open hr hl hx, offeringOpen_afresh (hmet (.inr hlast)) hrole, hq, Option.map_some, hn,
          if_pos rfl]
      · rw [takePage_offering_open hr hl hx, offeringOpen_answerers (hmet hne) hrole]
      · intro u a y
        have ha : r.offering = a := by rw [Record.offering, ← hl]
        have hafresh := (takePage_offering_open hr hl hx .proposer refuse n cap refl terms).trans
          (offeringOpen_afresh (hmet (.inl hne)) hrole)
        rw [hq, Option.map_some, if_neg (fun hc => hne (Option.some.inj hc))] at hafresh
        refine ⟨fun hc ht => ?_, fun hc ht => ?_, fun hc => ?_⟩
        · rw [hafresh, answerOrRefuse_more hr hc ht, ha]
          rfl
        · rw [hafresh, answerOrRefuse_last hr hc ht, ha]
          rfl
        · rw [hafresh, answerOrRefuse_full hr hc, ha]
          rfl
    · intro y
      have hacked := pageAcked_eq hr hx hp hid
      have hpending := pendingPage_eq hr hx hp hid
      have hexhausted : s.pageExhausted i id = s.toHeard i (if x.refusing then .refused else .timeout) offerHoldoff := by
        rw [State.pageExhausted, hpending]
        exact failExchange_eq hr hx
      refine ⟨fun hn => ?_, fun hn => ⟨fun hrole => ?_, fun hrole hf => ?_, fun hrole hf => ?_⟩, fun hf => ?_, fun hf => ?_⟩
      · rw [hacked, if_pos hn, readyPage_withExch hr]
        rfl
      · have hlast : s.pageAcked i id =
            (s.withExch i r (x.acked p.number s.now)).modExch i fun x => { x with phase := .awaitingPages } := by
          rw [hacked, if_neg (Nat.not_le.mpr hn), hrole]
        rw [hlast, modExch_eq (withExch_at hr r _) rfl, withExch_withExch r _ _ _ rfl]
        rfl
      · rw [hacked, if_neg (Nat.not_le.mpr hn), hrole]
        exact if_pos hf
      · rw [hacked, if_neg (Nat.not_le.mpr hn), hrole]
        exact if_neg (by rw [hf]; decide)
      · rw [hexhausted, if_pos hf]
        rfl
      · rw [hexhausted, if_neg (by rw [hf]; decide)]
        rfl
    · have hnone := pendingPage_none hr hx hp
      rw [State.pageAcked, State.pageExhausted, hnone]
      exact ⟨rfl, rfl⟩
  · intro asked
    rw [handBody_offer hk, handBody_offer hk]
    have hgood : (f.store && checkPasses body) = true := by rw [hstore, hcheck]; rfl
    refine ⟨fun hp => ?_, rfl, fun hp => ?_⟩
    · simp only [State.offerBody, hp]
    · simp only [State.offerBody, hp, hgood, if_true]
      refine ⟨fun ht => ?_, fun ht hd => ?_, fun ht h1 h2 => ?_⟩
      · rw [if_neg (by rw [ht]; decide)]
      · rw [if_pos ht]
        exact if_pos hd
      · rw [if_pos ht]
        exact if_neg fun hd => hd.elim h1 h2
  · exact parsedOffer_opening hp
  · exact parsedOffer_term hp

end Sys2Proof.Machine

/-! The air (chapter 01): the receiver and the carrier, the end of a transmission, the owed ACK, and contention down to
the final check. -/

namespace Sys2Proof.Machine

/-! ## The carrier and the receiver (R3 to R5, R10) -/

section
variable {s : State} (h : s.inReset = false)
include h

theorem exec_mediumBusyChange_rise : exec (.mediumBusyChange true) s = .next (State.finish { s with carrier := true }) := by
  show execMediumBusyChange true s = _
  rw [execMediumBusyChange, if_neg (Bool.eq_false_iff.mp h)]
  rfl

/-- A fall of carrier that ends no frame. -/
theorem exec_mediumBusyChange_fall (hf : s.fallEndsFrame = false) :
    exec (.mediumBusyChange false) s = .next (State.finish { s with carrier := false }) := by
  show execMediumBusyChange false s = _
  rw [execMediumBusyChange, if_neg (Bool.eq_false_iff.mp h), hf]
  rfl

theorem exec_syncWordFound (hs : s.rx.state = .hunt) :
    exec .syncWordFound s = .next (State.finish { s with rx := { s.rx with state := .header, heldAtSync := s.rx.holds } }) := by
  show execSyncWordFound s = _
  rw [execSyncWordFound, unlessReset_eq _ h]
  exact congrArg _ (if_pos hs)

theorem exec_headerAbandoned (hs : s.rx.state = .header) :
    exec .headerAbandoned s = .next (State.finish { s.dropFrame with carrier := false }) := by
  show execHeaderAbandoned s = _
  rw [execHeaderAbandoned, unlessReset_eq _ h]
  exact congrArg _ (if_pos hs)

theorem exec_frameTruncated {f : RxFrame} (hs : s.rx.state = .body) (hf : s.rx.frame = some f) (hn : s.now < f.ends) :
    exec .frameTruncated s = .next (State.finish { s.dropFrame with carrier := false }) := by
  have hrun : s.frameRunning = true := by
    rw [State.frameRunning, hf]
    exact decide_eq_true hn
  show execFrameTruncated s = _
  rw [execFrameTruncated, unlessReset_eq _ h]
  exact congrArg _ (if_pos ⟨hs, hrun⟩)

end

/-- Outside HEADER and BODY a fall of carrier ends no frame. -/
theorem fallEndsFrame_eq_false {s : State} (h1 : s.rx.state ≠ .header) (h2 : s.rx.state ≠ .body) :
    s.fallEndsFrame = false := by
  unfold State.fallEndsFrame
  split
  · exact absurd ‹_› h1
  · exact absurd ‹_› h2
  all_goals rfl

theorem operating_iff (s : State) : s.operating = true ↔ s.station = .acquiring ∨ s.station = .onAir := by
  simp [State.operating]

theorem askedToListen_iff (s : State) : s.askedToListen = true ↔ s.operating = true ∧
    (s.station = .acquiring ∨ s.duty.mode ≠ .doze ∨ s.duty.listen ≠ .none ∨ s.tx.state = .defer ∨
      s.tx.state = .backoff ∨ s.tx.state = .awaitAck) := by
  have hcont : s.tx.state.contending = true ↔ s.tx.state = .defer ∨ s.tx.state = .backoff ∨ s.tx.state = .awaitAck := by
    cases s.tx.state <;> simp [TxState.contending]
  rw [State.askedToListen, Bool.and_eq_true, Bool.or_eq_true, hcont, operating_iff]
  simp only [State.dutyListens, Bool.or_eq_true, Bool.and_eq_true, decide_eq_true_eq]
  tauto

theorem transmitting_iff (s : State) : s.transmitting = true ↔ s.tx.state = .sending ∨ s.tx.ackAir ≠ none := by
  simp [State.transmitting, Option.isSome_iff_ne_none]

theorem mediumBusy_of_frame {s : State} (h : s.rx.state = .header ∨ s.rx.state = .body ∨ s.rx.state = .discard) :
    s.mediumBusy = true := by
  rw [State.mediumBusy]
  rcases h with h | h | h <;> rw [h]

/-- Settles O29. -/
theorem receiverFollowsTheCarrier : Obligations.ReceiverFollowsTheCarrier := by
  unfold Obligations.ReceiverFollowsTheCarrier
  refine ⟨fun s h => ⟨⟨_, exec_mediumBusyChange_rise h, finish_ends _⟩, fun h1 h2 =>
    ⟨_, exec_mediumBusyChange_fall h (fallEndsFrame_eq_false h1 h2), finish_ends _⟩,
    fun hs => ⟨_, exec_syncWordFound h hs, finish_ends _, (finish_ends _).listens⟩,
    fun hs => ⟨_, exec_headerAbandoned h hs, finish_ends _⟩,
    fun f hs hf hn => ⟨_, exec_frameTruncated h hs hf hn, finish_ends _⟩⟩,
    fun s => ⟨operating_iff s, askedToListen_iff s, transmitting_iff s, ?_, ?_, mediumBusy_of_frame⟩⟩
  · simp [State.sensedIdle]
  · intro hs
    rw [State.mediumBusy, hs]

/-! ## The end of a transmission (R20) -/

/-- Activity moves the Duty Controller and the report queue alone (R140, R141). -/
theorem activity_eq (s : State) : ∃ y q o n d,
    s.activity = { s with duty := y, reports := q, overrun := o, serial := n, discards := d } := by
  unfold State.activity
  split
  · dsimp only
    split
    · exact ⟨_, s.reports, s.overrun, s.serial, s.discards, rfl⟩
    · obtain ⟨q, o, n, d, hput⟩ := putReport_eq (s := { s with duty := { s.duty with
        mode := .active, stepDown := dutyTimer s.now s.cfg.tQuiet,
        listen := if s.duty.mode = .doze then .none else s.duty.listen,
        survey := if s.duty.mode = .doze then 0 else s.duty.survey } }) 0 none (.duty .active s.duty.mode true)
      exact ⟨_, q, o, n, d, hput⟩
  · exact ⟨s.duty, s.reports, s.overrun, s.serial, s.discards, rfl⟩

theorem activity_tx (s : State) : s.activity.tx = s.tx := by
  obtain ⟨y, q, o, n, d, hs⟩ := activity_eq s
  rw [hs]

theorem beaconEnded_tx (s : State) : s.beaconEnded.tx = s.tx := by
  unfold State.beaconEnded
  split
  · split <;> rfl
  · rfl

/-- What a sender that was idle keeps through what ends the command, whether it chooses or not. -/
theorem State.Ends.of_idle {a b : State} (h : a.Ends b) (hi : a.tx.state = .idle) :
    b.tx.beaconDue = a.tx.beaconDue ∧ b.tx.reflect = a.tx.reflect := by
  rcases h.idle hi with he | ⟨-, hc⟩
  · rw [he]
    exact ⟨rfl, rfl⟩
  · have hrest := hc.rest
    dsimp only at hrest
    rw [← hrest]
    exact ⟨rfl, rfl⟩

theorem exec_transmissionEnd {s : State} {c : Chosen} {e : Nat} (h : s.inReset = false) (hst : s.tx.state = .sending)
    (hc : s.tx.chosen = some c) (he : s.tx.ends = some e) (hn : e ≤ s.now) :
    exec .transmissionEnd s = .next (s.sent c).finish := by
  show execTransmissionEnd s = _
  rw [execTransmissionEnd, unlessReset_eq _ h, hst, hc, he]
  exact congrArg _ (if_pos (reached_of_le hn))

theorem freeReflect_of_id {s : State} {b : ReflectBuffer} {id : Nat} (hb : s.tx.reflect = some b) (hid : b.id = id) :
    s.freeReflect id = { s with tx := { s.tx with reflect := none } } := by
  rw [State.freeReflect, hb]
  exact if_pos hid

theorem activity_awaitAck (s : State) : s.activity.awaitAck = { s.activity with
    tx := { s.tx with state := .awaitAck, ends := none, air := none, ackWait := some (s.now + 200) } } := by
  obtain ⟨y, q, o, n, d, hs⟩ := activity_eq s
  rw [hs]
  rfl

/-- Settles O38, by the kind of the frame sent. -/
theorem transmissionEndsByKind : Obligations.TransmissionEndsByKind := by
  unfold Obligations.TransmissionEndsByKind
  intro s e id i peer h hst he hn
  have hexec {c : Chosen} (hc : s.tx.chosen = some c) := exec_transmissionEnd h hst hc he hn
  refine ⟨fun hc => ⟨_, hexec hc, finish_ends _, ?_⟩, fun hc => ⟨_, hexec hc, finish_ends _⟩, ?_, ?_⟩
  · rw [((finish_ends _).of_idle (by rw [State.sent, beaconEnded_tx]; rfl)).1, State.sent, beaconEnded_tx]
    rfl
  · intro b hc hb hid
    have hsent : s.sent (.reflect id) =
        State.senderIdle { s.activity with tx := { s.activity.tx with reflect := none } } :=
      congrArg State.senderIdle (freeReflect_of_id ((activity_tx s).symm ▸ hb) hid)
    exact ⟨_, hexec hc, hsent ▸ finish_ends _, ((finish_ends _).of_idle rfl).2.trans (by rw [hsent]; rfl)⟩
  · intro hc
    have hsent : ∃ c, s.tx.chosen = some c ∧ s.sent c = s.activity.awaitAck := by
      rcases hc with hc | hc <;> exact ⟨_, hc, rfl⟩
    obtain ⟨c, hc, hs⟩ := hsent
    have hend := finish_ends (s.sent c)
    rw [hs, activity_awaitAck] at hend
    have htx := hend.sending (.inr rfl)
    refine ⟨_, (hexec hc).trans (by rw [hs, activity_awaitAck]), hend, ?_, ?_⟩
    · rw [htx]
    · rw [htx]

/-! ## The owed ACK (R21) -/

theorem exec_shortGapExpiry {s : State} {a : AckOwed} (h : s.inReset = false) (ho : s.tx.ackOwed = some a)
    (hd : a.due ≤ s.now) (ht : s.transmitting = false) :
    exec .shortGapExpiry s = .next (State.finish { s with
      rx := { s.rx with state := .off, frame := none },
      tx := { s.tx with ackOwed := none, ackAir := some (s.ackFrame a, s.now + 44) } }) := by
  show execShortGapExpiry s = _
  rw [execShortGapExpiry, unlessReset_eq _ h, ho]
  exact congrArg _ (if_pos ⟨hd, ht⟩)

theorem exec_ackTransmissionEnd {s : State} {a : AirFrame × Nat} (h : s.inReset = false) (ho : s.tx.ackAir = some a)
    (hd : a.2 ≤ s.now) :
    exec .ackTransmissionEnd s = .next (State.finish { s with
      tx := { s.tx with ackAir := none }, workAvailable := s.workAvailable || decide (s.tx.state = .idle) }) := by
  show execAckTransmissionEnd s = _
  rw [execAckTransmissionEnd, unlessReset_eq _ h, ho]
  exact congrArg _ (if_pos hd)

/-- With the transmitter on, the receiver stays OFF (R3). -/
theorem State.Ends.off {a b : State} (h : a.Ends b) (ho : a.rx.state = .off) (ht : b.transmitting = true) :
    b.rx.state = .off := by
  rw [h.listens, ho, ht, Bool.not_true, Bool.and_false]
  rfl

/-- What ends a command leaves an own ACK on air. -/
theorem State.Ends.ackAir {a b : State} (h : a.Ends b) (ho : a.tx.ackAir ≠ none) : b.tx.ackAir = a.tx.ackAir := by
  have hno : a.chooses = false := by
    cases hair : a.tx.ackAir with
    | none => exact absurd hair ho
    | some x => simp [State.chooses, State.mayChoose, hair]
  cases hst : a.tx.state with
  | idle =>
    rcases h.idle hst with he | ⟨hc, -⟩
    · rw [he]
    · exact absurd (hc.symm.trans hno) Bool.true_eq_false.mp
  | defer => rw [h.defer hst]
  | backoff =>
    rw [h.backoff hst]
    split <;> rfl
  | sending => rw [h.sending (.inl hst)]
  | awaitAck => rw [h.sending (.inr hst)]

theorem recOf_of_none {s : State} {a : Addr} (h : s.findPeer a = none) : s.recOf a = none := by
  rw [State.recOf, h]
  rfl

theorem recOf_of_some {s : State} {a : Addr} {i : Nat} {r : Record} (h : s.findPeer a = some i) (hr : s.rec? i = some r) :
    s.recOf a = some r := by
  rw [State.recOf, h]
  exact hr

/-- Settles O39. -/
theorem owedAckGoesOutAfterTheShortGap : Obligations.OwedAckGoesOutAfterTheShortGap := by
  unfold Obligations.OwedAckGoesOutAfterTheShortGap
  refine ⟨fun s a fr e h => ⟨fun ho hd hst hair => ?_, fun ho hd =>
    ⟨_, exec_ackTransmissionEnd h ho hd, finish_ends _⟩⟩, fun s a => ⟨_, _, rfl, fun hp => ?_, fun i r hp hr => ?_⟩⟩
  · have ht : s.transmitting = false :=
      Bool.eq_false_iff.mpr fun hc => ((transmitting_iff s).mp hc).elim hst fun hne => hne hair
    refine ⟨_, exec_shortGapExpiry h ho hd ht, finish_ends _, (finish_ends _).off rfl ((transmitting_iff _).mpr (.inr ?_)),
      rfl⟩
    rw [(finish_ends _).ackAir (Option.some_ne_none _)]
    exact Option.some_ne_none _
  · rw [recOf_of_none hp]
    exact ⟨rfl, rfl⟩
  · rw [recOf_of_some hp hr]
    exact ⟨rfl, fun hu => if_pos hu, fun hu => if_neg hu⟩

/-! ## Contention, the final check and the frame's start (R18, R19) -/

theorem exec_guardGapComplete {s : State} {e k : Nat} (h : s.inReset = false) (hn : e ≤ s.now) (hst : s.tx.state = .defer)
    (hg : s.tx.guard = some e) (hc : s.tx.count = some k) :
    exec .guardGapComplete s = .next
      (State.countDown k { s with tx := { s.tx with state := .backoff, guard := none } }).finish := by
  show execGuardGapComplete s = _
  rw [execGuardGapComplete, unlessReset_eq _ h, hc]
  exact congrArg _ (if_pos ⟨hst, by rw [hg]; exact reached_of_le hn⟩)

theorem exec_backoffSlotEnd {s : State} {e k : Nat} (h : s.inReset = false) (hn : e ≤ s.now) (hst : s.tx.state = .backoff)
    (he : s.tx.slotEnd = some e) (hc : s.tx.count = some (k + 1)) :
    exec .backoffSlotEnd s = .next (s.countDown k).finish := by
  show execBackoffSlotEnd s = _
  rw [execBackoffSlotEnd, unlessReset_eq _ h, hc]
  exact congrArg _ (if_pos ⟨hst, by rw [he]; exact reached_of_le hn⟩)

theorem countDown_zero (s : State) :
    s.countDown 0 = State.backoffEnds { s with tx := { s.tx with count := some 0 } } := if_pos rfl

theorem countDown_succ (s : State) (k : Nat) :
    s.countDown (k + 1) = { s with tx := { s.tx with count := some (k + 1), slotEnd := some (s.now + 20) } } :=
  if_neg (Nat.succ_ne_zero k)

/-- The final check reads of the sender its reflect buffer alone (R19). -/
theorem launch_congr (s : State) (x : TxState) (g k : Option Nat) (c : Chosen) :
    State.launch { s with tx := { s.tx with state := x, guard := g, count := k } } c = s.launch c := by
  cases c <;> rfl

theorem backoffEnds_launched {s : State} {c : Chosen} {l : Launch} (hc : s.tx.chosen = some c) (hl : s.launch c = some l) :
    s.backoffEnds = s.beginSending c l := by
  unfold State.backoffEnds
  rw [hc]
  dsimp only
  rw [hl]

theorem backoffEnds_abandoned {s : State} {c : Chosen} (hc : s.tx.chosen = some c) (hl : s.launch c = none) :
    s.backoffEnds = s.senderIdle := by
  unfold State.backoffEnds
  rw [hc]
  dsimp only
  rw [hl]

theorem countAttempt_page {s : State} {i : Nat} {r : Record} {x : Exchange} {p : Page} (id : Nat) (hr : s.rec? i = some r)
    (hx : r.exch = some x) (hp : x.page = some p) : s.countAttempt (.page i id) =
      s.setSlot i (some { r with exch := some { x with page := some { p with attempts := p.attempts + 1 } } }) := by
  rw [State.countAttempt, modExch_eq hr hx, hp]
  rfl

/-- An attempt counted moves the forward queue and the table alone. -/
theorem countAttempt_eq (s : State) (c : Chosen) : ∃ q l, s.countAttempt c = { s with fwd := q, slots := l } := by
  cases c with
  | page i id =>
    rw [State.countAttempt, State.modExch, State.modRec]
    split
    · exact ⟨s.fwd, _, rfl⟩
    · exact ⟨s.fwd, s.slots, rfl⟩
  | beacon => exact ⟨s.fwd, s.slots, rfl⟩
  | probe id => exact ⟨s.fwd, s.slots, rfl⟩
  | reflect id => exact ⟨s.fwd, s.slots, rfl⟩
  | data id peer => exact ⟨_, s.slots, rfl⟩

theorem beginSending_tx (c : Chosen) (l : Launch) (s : State) : (s.beginSending c l).tx =
    { s.tx with state := .sending, chosen := some c, addressee := l.addressee, attempt := l.attempt, count := none,
                guard := none, slotEnd := none, air := some l.frame,
                ends := some (s.now + airtime l.cls l.frame.body.length) } := by
  obtain ⟨q, v, hs⟩ := countAttempt_eq s c
  rw [State.beginSending, hs]

theorem beginSending_rx (c : Chosen) (l : Launch) (s : State) :
    (s.beginSending c l).rx = { s.rx with state := .off, frame := none } := by
  obtain ⟨q, v, hs⟩ := countAttempt_eq s c
  rw [State.beginSending, hs]
  rfl

/-- What ends the command leaves a frame just begun on air, with the receiver OFF (R3). -/
theorem beginSending_finish (c : Chosen) (l : Launch) (s : State) :
    (s.beginSending c l).finish.tx = (s.beginSending c l).tx ∧ (s.beginSending c l).finish.rx.state = .off ∧
      (s.beginSending c l).finish.rx.frame = none := by
  have hend := finish_ends (s.beginSending c l)
  have htx := hend.sending (.inl (by rw [beginSending_tx]))
  have hon : (s.beginSending c l).finish.transmitting = true :=
    (transmitting_iff _).mpr (.inl (by rw [htx, beginSending_tx]))
  exact ⟨htx, hend.off (by rw [beginSending_rx]) hon, hend.frame.trans (by rw [beginSending_rx])⟩

/-- The receiver and the sender as a frame's transmission begins, and what begins it leaves as it was. -/
theorem beginSending_keeps (c : Chosen) (l : Launch) (s : State) :
    { s.beginSending c l with tx := s.tx, rx := s.rx, fwd := s.fwd, slots := s.slots } = s := by
  obtain ⟨q, v, hs⟩ := countAttempt_eq s c
  rw [State.beginSending, hs]

/-- Rounding up: the time of a body is the least whole number of µs that its bits take at the rate (R1). -/
theorem bodyTime_rounds_up {c n : Nat} (hc : c < 8) :
    8 * n ≤ classRate c * bodyTime c n ∧ classRate c * bodyTime c n < 8 * n + classRate c := by
  have hpos : 0 < classRate c := by
    clear n
    revert hc
    revert c
    decide
  rw [bodyTime]
  generalize classRate c = q at hpos
  have hdiv := Nat.div_add_mod (8 * n + q - 1) q
  have hmod := Nat.mod_lt (8 * n + q - 1) hpos
  omega

/-- Settles O36. -/
theorem contentionCountsDownToTheFinalCheck : Obligations.ContentionCountsDownToTheFinalCheck := by
  unfold Obligations.ContentionCountsDownToTheFinalCheck
  refine ⟨fun s c n e h hc hn => ?_, fun s l => ⟨fun id peer => ⟨rfl, rfl⟩, fun i id r x p hr hx hp => ?_, ?_⟩,
    fun s c l => ⟨beginSending_keeps c l s, beginSending_rx c l s, beginSending_tx c l s, rfl⟩,
    fun c n hc => ⟨rfl, bodyTime_rounds_up hc⟩, rfl⟩
  · intro s0 sends
    have hlaunch : s0.launch c = s.launch c := launch_congr s _ _ _ c
    have hsends {x : Instr} {l : Launch} (hl : s.launch c = some l) (hx : exec x s = .next s0.backoffEnds.finish) :
        ∃ t, exec x s = .next t ∧ sends l t := by
      rw [backoffEnds_launched (s := s0) hc (hlaunch.trans hl)] at hx
      obtain ⟨htx, hrx, hframe⟩ := beginSending_finish c l s0
      rw [beginSending_tx] at htx
      refine ⟨_, hx, finish_ends _, ?_, ?_, ?_, ?_, ?_, ?_, hrx, hframe⟩ <;> rw [htx]
    have habandons {x : Instr} (hl : s.launch c = none) (hx : exec x s = .next s0.backoffEnds.finish) :
        ∃ t, exec x s = .next t ∧ State.Ends s0.senderIdle t := by
      rw [backoffEnds_abandoned (s := s0) hc (hlaunch.trans hl)] at hx
      exact ⟨_, hx, finish_ends _⟩
    have hlast (hst : s.tx.state = .backoff) (hg : s.tx.guard = none) :
        s0 = { s with tx := { s.tx with count := some 0 } } := by
      show ({ s with tx := { s.tx with state := .backoff, guard := none, count := some 0 } } : State) = _
      rw [← hst, ← hg]
    have hguard (hst : s.tx.state = .defer) (hg : s.tx.guard = some e) (hk : s.tx.count = some 0) :
        exec .guardGapComplete s = .next s0.backoffEnds.finish := by
      rw [exec_guardGapComplete h hn hst hg hk, countDown_zero]
    have hslot (hst : s.tx.state = .backoff) (he : s.tx.slotEnd = some e) (hg : s.tx.guard = none)
        (hk : s.tx.count = some 1) : exec .backoffSlotEnd s = .next s0.backoffEnds.finish := by
      rw [exec_backoffSlotEnd h hn hst he hk, countDown_zero, hlast hst hg]
    clear_value s0
    refine ⟨fun hst hg hk => ⟨_, (exec_guardGapComplete h hn hst hg hk).trans (by rw [countDown_succ]), ?_⟩,
      fun l hst hg hk hl => hsends hl (hguard hst hg hk), fun hst hg hk hl => habandons hl (hguard hst hg hk),
      fun hst he hk => ⟨_, (exec_backoffSlotEnd h hn hst he hk).trans (by rw [countDown_succ]), finish_ends _⟩,
      fun l hst he hg hk hl => hsends hl (hslot hst he hg hk),
      fun hst he hg hk hl => habandons hl (hslot hst he hg hk)⟩
    rw [← hk]
    exact finish_ends _
  · rw [State.beginSending, countAttempt_page id hr hx hp]
    exact ⟨rfl, rfl⟩
  · rintro c (rfl | ⟨id, rfl | rfl⟩) <;> exact ⟨rfl, rfl⟩

end Sys2Proof.Machine

/-! The air (chapter 01), continued: the header of a frame, and what its end hands on. -/

namespace Sys2Proof.Machine

/-! ## The header of a frame (R6, R170) -/

theorem packedFirst_toNat (bs : List Byte) (i : Nat) :
    (packedFirst bs i).toNat = byteAt bs i * 16 + byteAt bs (i + 1) / 16 := by
  have h1 := byteAt_lt bs i
  have h2 := byteAt_lt bs (i + 1)
  exact Nat.mod_eq_of_lt (by omega)

theorem packedSecond_toNat (bs : List Byte) (i : Nat) :
    (packedSecond bs i).toNat = byteAt bs (i + 1) % 16 * 256 + byteAt bs (i + 2) := by
  have h2 := byteAt_lt bs (i + 2)
  exact Nat.mod_eq_of_lt (by omega)

theorem ofCode_eq_none_iff (n : Nat) : FrameKind.ofCode n = none ↔ n = 0 ∨ 6 < n := by
  unfold FrameKind.ofCode
  split <;> simp_all
  omega

theorem code_of_ofCode {n : Nat} {k : FrameKind} (h : FrameKind.ofCode n = some k) : n = k.code := by
  unfold FrameKind.ofCode at h
  split at h <;> cases h <;> rfl

theorem code_eq_three_iff (k : FrameKind) : k.code = 3 ↔ k = .ack := by cases k <;> decide

section
variable {bs : List Byte} (hlen : bs.length = 10)
include hlen

theorem readAs_word : natBE ((bs.drop 5).take 2) = byteAt bs 5 * 256 + byteAt bs 6 := natBE_take_two (by omega)

theorem readAs_len (k : FrameKind) : (Header.readAs k bs).len = byteAt bs 5 % 8 * 256 + byteAt bs 6 := by
  have h6 := byteAt_lt bs 6
  rw [Header.readAs, readAs_word hlen]
  dsimp only
  omega

theorem readAs_cls (k : FrameKind) : (Header.readAs k bs).cls = byteAt bs 5 / 32 := by
  have h6 := byteAt_lt bs 6
  rw [Header.readAs, readAs_word hlen]
  dsimp only
  omega

/-- An accepted header is its fields, each from its place, and passes the tests of R6. -/
theorem parse_eq_some_iff (k : FrameKind) (hk : FrameKind.ofCode (byteAt bs 0 / 16) = some k) (h : Header) :
    Header.parse bs = some h ↔ h = Header.readAs k bs ∧ checkPasses bs = true ∧ (Header.readAs k bs).len ≤ 1100 ∧
      (k = .ack ↔ (Header.readAs k bs).len = 0) ∧ stationAddress (Header.readAs k bs).src = true := by
  rw [parse_of_kind hk, Option.ite_none_right_eq_some]
  simp only [hlen, Bool.and_eq_true, decide_eq_true_eq, beq_iff_eq, decide_eq_decide, Option.some.injEq]
  tauto

omit hlen in
/-- The tests of R6 fail where one of them fails. -/
theorem fails_iff {good ack : Prop} {code len src : Nat} (hcode : ¬(code = 0 ∨ 6 < code)) :
    ¬(good ∧ len ≤ 1100 ∧ (ack ↔ len = 0) ∧ 1 ≤ src ∧ src ≤ 0xFFD) ↔
      ¬good ∨ code = 0 ∨ 6 < code ∨ 1100 < len ∨ (ack ∧ len ≠ 0) ∨ (¬ack ∧ len = 0) ∨ src = 0 ∨ 0xFFD < src := by
  by_cases hack : ack
  all_goals by_cases hgood : good
  all_goals simp only [hack, hgood, true_and, false_and, true_iff, false_iff, not_true, not_false_iff, false_or, true_or]
  all_goals omega

theorem parse_eq_none_iff : Header.parse bs = none ↔
    checkPasses bs = false ∨ byteAt bs 0 / 16 = 0 ∨ 6 < byteAt bs 0 / 16 ∨
      1100 < byteAt bs 5 % 8 * 256 + byteAt bs 6 ∨
      (byteAt bs 0 / 16 = 3 ∧ byteAt bs 5 % 8 * 256 + byteAt bs 6 ≠ 0) ∨
      (byteAt bs 0 / 16 ≠ 3 ∧ byteAt bs 5 % 8 * 256 + byteAt bs 6 = 0) ∨
      byteAt bs 2 % 16 * 256 + byteAt bs 3 = 0 ∨ 0xFFD < byteAt bs 2 % 16 * 256 + byteAt bs 3 := by
  cases hk : FrameKind.ofCode (byteAt bs 0 / 16) with
  | none =>
    have hcode := (ofCode_eq_none_iff _).mp hk
    rw [Header.parse, hk]
    exact iff_of_true rfl (by tauto)
  | some k =>
    have hcode : ¬(byteAt bs 0 / 16 = 0 ∨ 6 < byteAt bs 0 / 16) := by
      rw [← ofCode_eq_none_iff, hk]
      exact Option.some_ne_none k
    have hack : byteAt bs 0 / 16 = 3 ↔ k = .ack := code_of_ofCode hk ▸ code_eq_three_iff k
    have hsrc : (Header.readAs k bs).src.toNat = byteAt bs 2 % 16 * 256 + byteAt bs 3 := packedSecond_toNat bs 1
    have hstation : stationAddress (Header.readAs k bs).src = true ↔
        1 ≤ byteAt bs 2 % 16 * 256 + byteAt bs 3 ∧ byteAt bs 2 % 16 * 256 + byteAt bs 3 ≤ 0xFFD := by
      rw [stationAddress, decide_eq_true_iff, hsrc]
    have hsome : Header.parse bs = none ↔ ¬∃ h, Header.parse bs = some h := by
      rw [← Option.isSome_iff_exists, Option.not_isSome_iff_eq_none]
    have hread := readAs_len hlen k
    rw [hsome, ← Bool.not_eq_true]
    simp only [parse_eq_some_iff hlen k hk, exists_eq_left, hstation, hread, ne_eq, hack]
    exact fails_iff hcode

/-- Where each field of an accepted header stands (12_formats). -/
theorem parse_fields {h : Header} (hp : Header.parse bs = some h) :
    byteAt bs 0 / 16 = h.kind.code ∧ (h.full = true ↔ byteAt bs 0 / 16 = 3 ∧ byteAt bs 0 % 16 ≠ 0) ∧
      h.dest.toNat = byteAt bs 1 * 16 + byteAt bs 2 / 16 ∧ h.src.toNat = byteAt bs 2 % 16 * 256 + byteAt bs 3 ∧
      h.step = byteAt bs 4 ∧ h.cls = byteAt bs 5 / 32 ∧ h.len = byteAt bs 5 % 8 * 256 + byteAt bs 6 ∧
      h.echo = byteAt bs 7 := by
  cases hk : FrameKind.ofCode (byteAt bs 0 / 16) with
  | none =>
    rw [Header.parse, hk] at hp
    cases hp
  | some k =>
    obtain ⟨rfl, -⟩ := (parse_eq_some_iff hlen k hk h).mp hp
    have hcode := code_of_ofCode hk
    refine ⟨hcode, ?_, packedFirst_toNat bs 1, packedSecond_toNat bs 1, rfl, readAs_cls hlen k, readAs_len hlen k, rfl⟩
    rw [hcode, code_eq_three_iff]
    simp [Header.readAs, isYes_iff]

end

theorem exec_headerReceived_rejected {s : State} {bs : List Byte} (raw : Int) (h : s.inReset = false)
    (hst : s.rx.state = .header) (hlen : bs.length = 10) (hp : Header.parse bs = none) :
    exec (.headerReceived bs raw) s = .next s.dropFrame.finish := by
  show execHeaderReceived bs raw s = _
  rw [execHeaderReceived, unlessReset_eq _ h, hp]
  exact congrArg _ (if_pos ⟨hst, hlen⟩)

theorem exec_headerReceived_accepted {s : State} {bs : List Byte} {hd : Header} (raw : Int) (h : s.inReset = false)
    (hst : s.rx.state = .header) (hlen : bs.length = 10) (hp : Header.parse bs = some hd) :
    exec (.headerReceived bs raw) s = .next (s.acceptHeader hd raw).finish := by
  show execHeaderReceived bs raw s = _
  rw [execHeaderReceived, unlessReset_eq _ h, hp]
  exact congrArg _ (if_pos ⟨hst, hlen⟩)

/-- The address filter (R7). -/
theorem keeps_iff (s : State) (h : Header) : s.keeps h = true ↔
    h.kind = .beacon ∧ h.dest = 0xFFF#12 ∧ s.operating = true ∨
      h.kind ≠ .beacon ∧ s.station = .onAir ∧ (h.dest = s.cfg.address ∨ h.dest = 0xFFE#12 ∧ s.cfg.gateway = true) := by
  unfold State.keeps
  cases hk : h.kind with
  | beacon =>
    dsimp only
    rw [Bool.and_eq_true, decide_eq_true_iff]
    exact ⟨fun hd => .inl ⟨rfl, hd⟩, fun hd => hd.elim And.right fun hc => absurd rfl hc.1⟩
  | _ =>
    dsimp only
    rw [Bool.and_eq_true, Bool.or_eq_true, Bool.and_eq_true, decide_eq_true_iff, decide_eq_true_iff, decide_eq_true_iff]
    exact ⟨fun hd => .inr ⟨FrameKind.noConfusion, hd⟩, fun hd => hd.elim (fun hc => nomatch hc.1) And.right⟩

/-- Settles O30. -/
theorem headerIsRejectedKeptOrDiscarded : Obligations.HeaderIsRejectedKeptOrDiscarded := by
  unfold Obligations.HeaderIsRejectedKeptOrDiscarded
  refine ⟨fun s bs raw h hst hlen => ⟨fun hp =>
    ⟨_, exec_headerReceived_rejected raw h hst hlen hp, finish_ends _⟩, fun hd hp =>
    ⟨clampRaw raw, !decide (hd.src = s.cfg.address) && s.keeps hd, _,
      exec_headerReceived_accepted raw h hst hlen hp, Int.toNat_of_nonneg (le_max_left _ _), ?_, finish_ends _⟩⟩,
    fun bs hlen => ⟨parse_eq_none_iff hlen, fun hd hp => ?_⟩, fun c n hc => bodyTime_rounds_up hc⟩
  · rw [Bool.and_eq_true, keeps_iff, Bool.not_eq_true', decide_eq_false_iff_not]
  · obtain ⟨hkind, hfields⟩ := parse_fields hlen hp
    exact ⟨hkind.trans (by cases hd.kind <;> rfl), hfields⟩

/-! ## The end of a frame (R8, R9, R11, R12) -/

theorem active_iff (k : FrameKind) : k.active = true ↔ k = .data ∨ k = .offer ∨ k = .probe ∨ k = .reflect := by
  cases k <;> decide

theorem keptFrameEnds_active {f : RxFrame} (s : State) (body : List Byte) (h : f.header.kind.active = true) :
    s.keptFrameEnds f body =
      State.handBody f (s.observe f (admitsWith f body) (f.echoCarried s.cfg.address body)).2 body
        (s.observe f (admitsWith f body) (f.echoCarried s.cfg.address body)).1.activity := by
  rw [State.keptFrameEnds, if_pos h]

theorem keptFrameEnds_inactive {f : RxFrame} (s : State) (body : List Byte) (h : ¬f.header.kind.active = true) :
    s.keptFrameEnds f body =
      State.handBody f (s.observe f (admitsWith f body) (f.echoCarried s.cfg.address body)).2 body
        (s.observe f (admitsWith f body) (f.echoCarried s.cfg.address body)).1 := by
  rw [State.keptFrameEnds, if_neg h]

section
variable {s : State} {f : RxFrame} (h : s.inReset = false) (hf : s.rx.frame = some f) (hn : f.ends ≤ s.now)
include h hf hn

theorem exec_frameEnd {body : List Byte} (hst : s.rx.state = .body) (hlen : body.length = f.header.len) :
    exec (.frameEnd body) s = .next (s.dropFrame.keptFrameEnds f body).finishLinks := by
  show execFrameEnd body s = _
  rw [execFrameEnd, unlessReset_eq _ h, hst, hf]
  exact congrArg _ (if_pos ⟨hn, hlen⟩)

theorem exec_discardEnd (hst : s.rx.state = .discard) :
    exec .discardEnd s = .next (if f.own then s.dropFrame else
      (s.dropFrame.observe f none (f.echoCarried s.cfg.address [])).1).finishLinks := by
  show execDiscardEnd s = _
  rw [execDiscardEnd, unlessReset_eq _ h, hst, hf]
  exact congrArg _ (if_pos hn)

end

section
variable {f : RxFrame} {body : List Byte} (s : State) (slot : Option Nat)

theorem handBody_data (hk : f.header.kind = .data) : s.handBody f slot body = s.dataBody f slot body := by
  simp only [State.handBody, hk]

theorem handBody_beacon_none (hk : f.header.kind = .beacon) : s.handBody f none body = s := by
  simp only [State.handBody, hk]

/-- A beacon whose body was not stored, is bad or is malformed moves its sender's window alone (R9, R146). -/
theorem handBody_beacon_unread (hk : f.header.kind = .beacon) (i : Nat)
    (hbad : (f.store && checkPasses body) = false ∨ parseBeacon body = none) :
    s.handBody f (some i) body = s.openPeerWindow i := by
  simp only [State.handBody, hk]
  cases hp : parseBeacon body with
  | none => rfl
  | some b =>
    rcases hbad with hbad | hbad
    · simp [hbad]
    · rw [hp] at hbad
      cases hbad

/-- A page, a probe or a REFLECT not stored or bad does nothing (R9). -/
theorem handBody_unstored (hk : f.header.kind = .offer ∨ f.header.kind = .probe ∨ f.header.kind = .reflect)
    (hbad : (f.store && checkPasses body) = false) : s.handBody f slot body = s := by
  rcases hk with hk | hk | hk
  · rw [handBody_offer hk]
    unfold State.offerBody
    split
    · rw [if_neg (Bool.eq_false_iff.mp hbad)]
    · rfl
  · simp only [State.handBody, hk, hbad, Bool.false_eq_true, if_false]
    cases slot <;> rfl
  · simp only [State.handBody, hk, hbad, Bool.false_eq_true, if_false]

theorem dataBody_bad (hs : f.store = true) (hbad : checkPasses body = false) : s.dataBody f slot body = s := by
  unfold State.dataBody
  rw [if_pos hs]
  cases slot with
  | none => rfl
  | some i => exact if_neg (Bool.eq_false_iff.mp hbad)

theorem dataBody_headerOnly (hs : f.store = false) : s.dataBody f slot body = s.askAck f.header true := by
  unfold State.dataBody
  rw [if_neg (Bool.eq_false_iff.mp hs)]

end

theorem askAck_shared {s : State} {h : Header} (full : Bool) (hd : h.dest = 0xFFE#12 ∨ h.dest = 0xFFF#12) :
    s.askAck h full = s := if_pos hd

theorem askAck_owed {s : State} {h : Header} (full : Bool) (h1 : h.dest ≠ 0xFFE#12) (h2 : h.dest ≠ 0xFFF#12) :
    s.askAck h full =
      { s with tx := { s.tx with ackOwed := some { dest := h.src, full := full, due := s.now + 16 } } } :=
  if_neg fun hc => hc.elim h1 h2

theorem openPeerWindow_doze {s : State} {i : Nat} {r : Record} (hr : s.rec? i = some r) (hm : r.advert.mode = .doze) :
    s.openPeerWindow i =
      { s.setSlot i (some { r with windowEnd := some (s.now + 1000 * r.advert.window) }) with workAvailable := true } := by
  rw [State.openPeerWindow, hr]
  exact if_pos hm

theorem openPeerWindow_awake {s : State} {i : Nat} {r : Record} (hr : s.rec? i = some r) (hm : r.advert.mode ≠ .doze) :
    s.openPeerWindow i = s.setSlot i (some { r with windowEnd := none }) := by
  rw [State.openPeerWindow, hr]
  exact if_neg hm

/-- Settles O31. -/
theorem frameEndsHandOnInOrder : Obligations.FrameEndsHandOnInOrder := by
  unfold Obligations.FrameEndsHandOnInOrder
  refine ⟨fun s f body h hf hn => ?_, fun s f slot body hbad => ?_⟩
  · intro s0 seen busy
    have hdrop : s.dropFrame = s0 := rfl
    refine ⟨fun hst hlen hb => ?_, fun hst hlen hb => ?_, fun hst ho => ?_, fun hst ho => ?_⟩
    · have hexec := exec_frameEnd h hf hn hst hlen
      rw [hdrop, keptFrameEnds_active s0 body ((active_iff _).mpr hb)] at hexec
      exact ⟨_, hexec, finish_ends _⟩
    · have hexec := exec_frameEnd h hf hn hst hlen
      rw [hdrop, keptFrameEnds_inactive s0 body fun hc => hb ((active_iff _).mp hc)] at hexec
      exact ⟨_, hexec, finish_ends _⟩
    · have hexec := exec_discardEnd h hf hn hst
      rw [hdrop, ho] at hexec
      exact ⟨_, hexec, finish_ends _⟩
    · have hexec := exec_discardEnd h hf hn hst
      rw [hdrop, ho] at hexec
      exact ⟨_, hexec, finish_ends _⟩
  · have hnot : (f.store && checkPasses body) = false := by
      rcases hbad with hb | hb <;> rw [hb] <;> simp
    refine ⟨fun hk => handBody_unstored s slot hk hnot, fun hk hs => ?_, fun hk hs hd => ?_, fun hk hs h1 h2 => ?_,
      fun hk hslot => hslot ▸ handBody_beacon_none s hk, fun i r hk hslot hr => ?_⟩
    · rw [handBody_data s slot hk]
      exact dataBody_bad s slot hs (hbad.resolve_left fun hc => Bool.false_ne_true (hc.symm.trans hs))
    · rw [handBody_data s slot hk, dataBody_headerOnly s slot hs, askAck_shared true hd]
    · rw [handBody_data s slot hk, dataBody_headerOnly s slot hs, askAck_owed true h1 h2]
    · subst hslot
      rw [handBody_beacon_unread s hk i (.inl hnot)]
      exact ⟨openPeerWindow_awake hr, openPeerWindow_doze hr⟩

end Sys2Proof.Machine

/-! What becomes of a queued frame: its release, its drop and what the drop makes known (R128 to R130, R135), an attempt
settled (R22, R23), and the wait limit (R129). -/

namespace Sys2Proof.Machine

/-! ## Release and drop -/

/-- The state with the first queue entry of an identity gone and its buffer given back (R120). -/
def State.withdrawn (id : Nat) (s : State) : State :=
  if s.rx.request = true ∧ s.rx.holds = false then
    { s with fwd := s.fwd.eraseP fun e => decide (e.id = id), rx := { s.rx with holds := true, request := false } }
  else { s with fwd := s.fwd.eraseP fun e => decide (e.id = id), free := s.free + 1 }

theorem dequeue_returnBuffer (s : State) (id : Nat) : (s.dequeue id).returnBuffer = s.withdrawn id := by
  have hcond : (s.rx.request && !s.rx.holds) = true ↔ s.rx.request = true ∧ s.rx.holds = false := by
    rw [Bool.and_eq_true, Bool.not_eq_true']
  by_cases h : s.rx.request = true ∧ s.rx.holds = false
  · rw [State.withdrawn, if_pos h]
    exact if_pos (hcond.mpr h)
  · rw [State.withdrawn, if_neg h]
    exact if_neg fun hc => h (hcond.mp hc)

/-- A frame withdrawn moves the forward queue, the receiver's buffer and the pool alone. -/
theorem withdrawn_eq (s : State) (id : Nat) : ∃ x n,
    s.withdrawn id = { s with fwd := s.fwd.eraseP fun e => decide (e.id = id), rx := x, free := n } := by
  rw [State.withdrawn]
  split
  · exact ⟨_, s.free, rfl⟩
  · exact ⟨s.rx, _, rfl⟩

section
variable {s : State} {id : Nat} {q : Entry} (h : s.entry? id = some q)
include h

theorem releaseEntry_eq : s.releaseEntry id = s.withdrawn id := by
  rw [State.releaseEntry, h]
  exact dequeue_returnBuffer s id

theorem dropEntry_eq (c : DropCause) : s.dropEntry id c = (s.withdrawn id).recordDrop q c := by
  rw [State.dropEntry, h, ← dequeue_returnBuffer]

end

section
variable (s : State) {q : Entry}

theorem recordDrop_tagged (c : DropCause) {tag : Word16} (ht : q.tag = some tag) :
    s.recordDrop q c = s.putReport q.dest none (.drop 1 tag c q.seq) := by
  unfold State.recordDrop
  rw [ht]

theorem recordDrop_transit_noPath {j : Nat} (ht : q.tag = none) (hj : q.source = some j) :
    s.recordDrop q .noPath = s.modRec j fun r => { r with pathDrops := raise16 r.pathDrops } := by
  unfold State.recordDrop
  rw [ht, hj]

theorem recordDrop_unknown {c : DropCause} (ht : q.tag = none) (hc : q.source = none ∨ c ≠ .noPath) :
    s.recordDrop q c = s := by
  unfold State.recordDrop
  rw [ht]
  cases hs : q.source with
  | none => rfl
  | some j =>
    have hne : c ≠ .noPath := hc.resolve_left (hs ▸ Option.some_ne_none j)
    cases c with
    | noPath => exact absurd rfl hne
    | _ => rfl

end

/-- A frame dropped for any other cause than NO PATH moves no record (R135, R40). -/
theorem recordDrop_slots (s : State) (q : Entry) {c : DropCause} (hc : c ≠ .noPath) : (s.recordDrop q c).slots = s.slots := by
  cases ht : q.tag with
  | some tag => rw [recordDrop_tagged s c ht, putReport_slots]
  | none => rw [recordDrop_unknown s ht (.inr hc)]

theorem dropEntry_slots (s : State) (id : Nat) {c : DropCause} (hc : c ≠ .noPath) : (s.dropEntry id c).slots = s.slots := by
  unfold State.dropEntry
  split
  · rfl
  · rw [recordDrop_slots _ _ hc, dequeue_returnBuffer]
    obtain ⟨x, n, hw⟩ := withdrawn_eq s id
    rw [hw]

/-! ## Settling an attempt (R22, R23) -/

theorem exec_ackWaitExpiry {s : State} {e : Nat} (h : s.inReset = false) (hst : s.tx.state = .awaitAck)
    (hw : s.tx.ackWait = some e) (he : e ≤ s.now) :
    exec .ackWaitExpiry s = .next (s.settleAttempt .noAck).finishLinks := by
  show execAckWaitExpiry s = _
  rw [execAckWaitExpiry, unlessReset_eq _ h]
  exact congrArg _ (if_pos ⟨hst, by rw [hw]; exact reached_of_le he⟩)

theorem handBody_ack {f : RxFrame} (hk : f.header.kind = .ack) (s : State) (slot : Option Nat) (body : List Byte) :
    s.handBody f slot body = s.takeAck f.header slot := by
  simp only [State.handBody, hk]

theorem clearStreak_some {s : State} {i : Nat} {r : Record} (hr : s.rec? i = some r) :
    s.clearStreak (some i) = s.setSlot i (some { r with failStreak := 0 }) := modRec_eq s _ hr

/-- The sender idle with a contention window, as a settled attempt leaves it (R23). -/
def State.settledAt (cw : Nat) (u : State) : State := State.senderIdle { u with tx := { u.tx with cw := cw } }

theorem exhausted_iff (s : State) : s.exhausted = true ↔ s.cfg.rMax < s.tx.attempt := decide_eq_true_iff

theorem windowAfter_exhausted {s : State} (hx : s.cfg.rMax < s.tx.attempt) (o : AttemptOutcome) : s.windowAfter o = 16 :=
  if_pos (.inr ((exhausted_iff s).mpr hx))

theorem windowAfter_accepted (s : State) : s.windowAfter .accepted = 16 := if_pos (.inl rfl)

theorem settleAttempt_eq {s u : State} {o : AttemptOutcome} {cw : Nat} (hr : s.returnFrame o = u)
    (hw : s.windowAfter o = cw) : s.settleAttempt o = u.settledAt cw := by
  rw [State.settleAttempt, hr, hw]
  rfl

/-- With attempts remaining the frame stays where it is and the window doubles, up to 256 (R23). -/
theorem settleAttempt_remaining {s : State} {o : AttemptOutcome} (ho : o ≠ .accepted) (hx : s.tx.attempt ≤ s.cfg.rMax) :
    s.settleAttempt o = s.settledAt (min 256 (2 * s.tx.cw)) := by
  have hno : s.exhausted = false := Bool.eq_false_iff.mpr fun hc => absurd ((exhausted_iff s).mp hc) (not_lt.mpr hx)
  refine settleAttempt_eq ?_ (if_neg fun hc => hc.elim ho fun ht => Bool.false_ne_true (hno.symm.trans ht))
  unfold State.returnFrame
  split <;> simp_all

section
variable {s : State} {i id : Nat} (h : s.tx.chosen = some (.page i id))
include h

theorem returnFrame_page_accepted : s.returnFrame .accepted = s.pageAcked i id := by
  unfold State.returnFrame
  rw [h]

theorem returnFrame_page_exhausted {o : AttemptOutcome} (ho : o ≠ .accepted) (hx : s.cfg.rMax < s.tx.attempt) :
    s.returnFrame o = s.pageExhausted i id := by
  unfold State.returnFrame
  rw [h]
  cases o with
  | accepted => exact absurd rfl ho
  | _ => exact if_pos ((exhausted_iff s).mpr hx)

end

section
variable {s : State} {id : Nat} {peer : Addr} (h : s.tx.chosen = some (.data id peer))
include h

theorem returnFrame_data_accepted : s.returnFrame .accepted = s.releaseEntry id := by
  unfold State.returnFrame
  rw [h]

theorem returnFrame_data_full (hx : s.cfg.rMax < s.tx.attempt) : s.returnFrame .full = s.dropEntry id .fullAtPeer := by
  unfold State.returnFrame
  rw [h]
  exact if_pos ((exhausted_iff s).mpr hx)

theorem returnFrame_data_noAck (ha : s.tx.addressee = some peer) (hx : s.cfg.rMax < s.tx.attempt) :
    s.returnFrame .noAck = (s.dropEntry id .noAck).noAckExhausted peer := by
  unfold State.returnFrame
  rw [h, ha]
  exact if_pos ((exhausted_iff s).mpr hx)

end

theorem noAckExhausted_not_up {s : State} {peer : Addr}
    (h : ∀ j r, s.findPeer peer = some j → s.rec? j = some r → r.link ≠ .up) : s.noAckExhausted peer = s := by
  unfold State.noAckExhausted
  split
  · rfl
  · next j hj =>
    split
    · rfl
    · next r hr => exact if_neg (h j r hj hr)

theorem noAckExhausted_up {s : State} {peer : Addr} {j : Nat} {r : Record} (hj : s.findPeer peer = some j)
    (hr : s.rec? j = some r) (hu : r.link = .up) : s.noAckExhausted peer =
      if 3 ≤ r.failStreak + 1 then (s.setSlot j (some { r with failStreak := r.failStreak + 1 })).loseLink j .noAck
      else s.setSlot j (some { r with failStreak := r.failStreak + 1 }) := by
  unfold State.noAckExhausted
  rw [hj]
  dsimp only
  rw [hr]
  exact if_pos hu

theorem findPeer_congr {a b : State} (h : a.slots = b.slots) (peer : Addr) : a.findPeer peer = b.findPeer peer := by
  rw [State.findPeer, h]
  rfl

/-- Settles O40. -/
theorem attemptsAreSettledOnce : Obligations.AttemptsAreSettledOnce := by
  unfold Obligations.AttemptsAreSettledOnce
  refine ⟨fun s e h hst hw he => ⟨_, exec_ackWaitExpiry h hst hw he, finish_ends _⟩, fun s h => ?_,
    fun s f slot body hk => handBody_ack hk s slot body, fun s o id i peer q => ?_, fun s id q cause hq => ?_⟩
  · refine ⟨fun hn => if_neg hn, fun ha => if_pos ha, fun i r hr => ⟨fun hn => ?_, fun ha => ?_⟩⟩
    · rw [← clearStreak_some hr]
      exact if_neg hn
    · rw [← clearStreak_some hr]
      exact if_pos ha
  · refine ⟨fun ho hx _ => settleAttempt_remaining ho hx, fun hc =>
      ⟨settleAttempt_eq (returnFrame_page_accepted hc) (windowAfter_accepted s), fun ho hx =>
        settleAttempt_eq (returnFrame_page_exhausted hc ho hx) (windowAfter_exhausted hx o)⟩, fun hc ha hq =>
      ⟨settleAttempt_eq (returnFrame_data_accepted hc) (windowAfter_accepted s), fun hx => ?_⟩⟩
    intro d
    have hslots : d.slots = s.slots := dropEntry_slots s id (by decide)
    have hreturn : s.returnFrame .noAck = d.noAckExhausted peer := returnFrame_data_noAck hc ha hx
    clear_value d
    refine ⟨settleAttempt_eq (returnFrame_data_full hc hx) (windowAfter_exhausted hx _), fun hno => ?_,
      fun j r hj hr hu => ?_⟩
    · refine settleAttempt_eq (hreturn.trans (noAckExhausted_not_up fun j r hj hr => hno j r ?_ ?_))
        (windowAfter_exhausted hx _)
      · rw [← hj, findPeer_congr hslots]
      · rw [← hr, rec?_congr hslots]
    · have hraise := hreturn.trans (noAckExhausted_up ((findPeer_congr hslots peer).trans hj)
        ((rec?_congr hslots j).trans hr) hu)
      exact ⟨fun hlow => settleAttempt_eq (hraise.trans (if_neg (not_le.mpr hlow))) (windowAfter_exhausted hx _),
        fun hhigh => settleAttempt_eq (hraise.trans (if_pos hhigh)) (windowAfter_exhausted hx _)⟩
  · intro left gone
    have hgone : s.withdrawn id = gone := rfl
    have hslots : gone.slots = s.slots := by
      obtain ⟨x, n, hw⟩ := withdrawn_eq s id
      rw [← hgone, hw]
    have hdrop := dropEntry_eq hq cause
    rw [hgone] at hdrop
    refine ⟨(releaseEntry_eq hq).trans hgone, fun tag ht => hdrop.trans (recordDrop_tagged gone cause ht),
      fun j r ht hj hc hr => ?_, fun ht hc => hdrop.trans (recordDrop_unknown gone ht hc)⟩
    subst hc
    rw [hdrop, recordDrop_transit_noPath gone ht hj]
    exact modRec_eq gone _ ((rec?_congr hslots j).trans hr)

/-! ## The wait limit and the route age (R129, R133) -/

/-- The wait-limit test of an identity made (R129, log 27). -/
def Entry.tested (id : Nat) (e : Entry) : Entry := if e.id = id then { e with waitDue := false } else e

theorem tested_id (id : Nat) (e : Entry) : (e.tested id).id = e.id := by
  rw [Entry.tested]
  split <;> rfl

theorem map_tested_of_not_mem {id : Nat} {l : List Entry} (h : id ∉ l.map Entry.id) : l.map (Entry.tested id) = l := by
  have hself : ∀ e ∈ l, Entry.tested id e = e := fun e he => if_neg fun hc : e.id = id => h (hc ▸ List.mem_map_of_mem he)
  exact (List.map_congr_left hself).trans (List.map_id' l)

/-- With every identity once, the first entry of an identity is the one at its place. -/
theorem eraseP_map_tested {q : Entry} {l : List Entry} {k : Nat} (hk : l[k]? = some q) (hn : (l.map Entry.id).Nodup) :
    ((l.map (Entry.tested q.id)).eraseP fun e => decide (e.id = q.id)) = l.eraseIdx k := by
  induction l generalizing k with
  | nil => cases hk
  | cons e l ih =>
    obtain ⟨hnew, hn⟩ := List.nodup_cons.mp hn
    rw [List.map_cons]
    cases k with
    | zero =>
      obtain rfl : e = q := Option.some.inj hk
      rw [List.eraseP_cons_of_pos (p := fun x : Entry => decide (x.id = e.id)) (decide_eq_true (tested_id _ e)), map_tested_of_not_mem hnew]
      rfl
    | succ k =>
      have hmem : q.id ∈ l.map Entry.id := List.mem_map_of_mem (List.mem_of_getElem? hk)
      have hne : e.id ≠ q.id := fun hc => hnew (hc ▸ hmem)
      rw [List.eraseP_cons_of_neg (by rw [tested_id]; exact fun hc => hne (of_decide_eq_true hc)), ih hk hn, Entry.tested,
        if_neg hne]
      rfl

theorem find?_map_tested {q : Entry} {l : List Entry} {k : Nat} (hk : l[k]? = some q) (hn : (l.map Entry.id).Nodup) :
    (l.map (Entry.tested q.id)).find? (fun e => decide (e.id = q.id)) = some { q with waitDue := false } := by
  induction l generalizing k with
  | nil => cases hk
  | cons e l ih =>
    obtain ⟨hnew, hn⟩ := List.nodup_cons.mp hn
    rw [List.map_cons]
    cases k with
    | zero =>
      obtain rfl : e = q := Option.some.inj hk
      rw [List.find?_cons_of_pos (p := fun x : Entry => decide (x.id = e.id)) (decide_eq_true (tested_id _ e)), Entry.tested, if_pos rfl]
    | succ k =>
      have hmem : q.id ∈ l.map Entry.id := List.mem_map_of_mem (List.mem_of_getElem? hk)
      have hne : e.id ≠ q.id := fun hc => hnew (hc ▸ hmem)
      rw [List.find?_cons_of_neg (by rw [tested_id]; exact fun hc => hne (of_decide_eq_true hc))]
      exact ih hk hn

/-- A DROP report placed in the queue stands there with its count, or the queue was full (R135, R167). -/
theorem putReport_drop (s : State) (a : Addr) (slot : Option Nat) (tag : Word16) (c : DropCause) (seq : Word16) :
    ∃ n, (∃ w ∈ (s.putReport a slot (.drop 1 tag c seq)).reports, w.addr = a ∧ w.body = .drop n tag c seq) ∨
      32 ≤ s.reports.length ∧ (s.putReport a slot (.drop 1 tag c seq)).overrun = true := by
  cases hq : overwrite a slot (.drop 1 tag c seq) s.serial s.reports with
  | some q =>
    rw [putReport_of_overwrite hq]
    obtain ⟨⟨r, -, hmem⟩, -⟩ := overwrite_spec _ _ _ _ _ _ hq
    have hdrop : ∃ n, coalesce r.body (.drop 1 tag c seq) = .drop n tag c seq := by
      cases r.body <;> exact ⟨_, rfl⟩
    obtain ⟨n, hn⟩ := hdrop
    exact ⟨n, .inl ⟨_, hmem, rfl, hn⟩⟩
  | none =>
    rw [putReport_of_none hq]
    split
    · exact ⟨1, .inl ⟨_, List.mem_append_right _ List.mem_cons_self, rfl, rfl⟩⟩
    · next hlen => exact ⟨1, .inr ⟨not_lt.mp hlen, rfl⟩⟩

theorem recordDrop_work (s : State) (q : Entry) (c : DropCause) :
    (s.recordDrop q c).workAvailable = s.workAvailable := by
  unfold State.recordDrop
  split
  · unfold State.putReport
    (repeat' split) <;> rfl
  · rw [State.modRec]
    split <;> rfl
  · rfl

theorem recordDrop_fwd (s : State) (q : Entry) (c : DropCause) : (s.recordDrop q c).fwd = s.fwd := by
  unfold State.recordDrop
  split
  · unfold State.putReport
    (repeat' split) <;> rfl
  · rw [State.modRec]
    split <;> rfl
  · rfl

/-- A drop leaves the sender and the work to do as they were: whether a choice is made does not turn on it. -/
theorem dropEntry_chooses (s : State) (id : Nat) (c : DropCause) : (s.dropEntry id c).chooses = s.chooses := by
  have htx : (s.dropEntry id c).tx = s.tx := congrArg (fun p => p.2.2.2.2) (dropEntry_still s id c)
  have hstation : (s.dropEntry id c).station = s.station := congrArg HostPart.station (dropEntry_host s id c)
  have hwork : (s.dropEntry id c).workAvailable = s.workAvailable := by
    cases hq : s.entry? id with
    | none => rw [State.dropEntry, hq]
    | some q =>
      obtain ⟨x, n, hw⟩ := withdrawn_eq s id
      rw [dropEntry_eq hq, recordDrop_work, hw]
  rw [State.chooses, State.mayChoose, htx, hstation, hwork]
  rfl

theorem inFlight_iff (s : State) (id : Nat) : s.inFlight id = true ↔ ∃ peer, s.tx.chosen = some (.data id peer) := by
  unfold State.inFlight
  split
  · next d peer hc =>
    rw [decide_eq_true_iff, hc]
    exact ⟨fun hd => ⟨peer, hd ▸ rfl⟩, fun ⟨p, hp⟩ => by cases hp; rfl⟩
  · next hno => exact ⟨fun hc => absurd hc Bool.false_ne_true, fun ⟨p, hp⟩ => absurd hp (hno id p)⟩

theorem pastWait_iff (s : State) (e : Entry) : s.pastWait e = true ↔ 1000 * s.cfg.tWait ≤ s.nowMs - e.entered :=
  decide_eq_true_iff

theorem exec_waitLimitExpiry {s : State} {k : Nat} {q : Entry} (h : s.inReset = false) (hk : s.fwd[k]? = some q)
    (hd : q.waitDue = true) (ha : 1000 * s.cfg.tWait ≤ s.nowMs - q.entered) :
    exec (.waitLimitExpiry k) s = .next (s.waitTest q).finish := by
  show execWaitLimitExpiry k s = _
  rw [execWaitLimitExpiry, unlessReset_eq _ h, hk]
  exact congrArg _ (if_pos (by rw [hd, (pastWait_iff s q).mpr ha]; rfl))

theorem exec_routeAgeExpiry {s : State} {p : ReturnPath} (h : s.inReset = false)
    (hp : s.paths.find? (fun e => decide (e.dest = p.dest)) = some p)
    (ha : 1000 * s.cfg.routeAge ≤ s.nowMs - p.refresh) : exec (.routeAgeExpiry p.dest) s =
      .next (State.finish { s with paths := s.paths.filter fun e => decide (e.dest ≠ p.dest), workAvailable := true }) := by
  have hold : s.routeOld p.dest = true := by
    rw [State.routeOld, hp]
    exact decide_eq_true ha
  show execRouteAgeExpiry p.dest s = _
  rw [execRouteAgeExpiry, unlessReset_eq _ h]
  exact congrArg _ (if_pos hold)

/-- The wait-limit tests of an identity made (R129). -/
def State.tested (id : Nat) (s : State) : State := { s with fwd := s.fwd.map (Entry.tested id) }

theorem waitTest_waiting {s : State} {q : Entry} (he : s.examine q = .waiting) (hf : s.inFlight q.id = false) :
    s.waitTest q = (s.tested q.id).dropEntry q.id .noPath := by
  rw [State.waitTest]
  exact if_pos (by rw [hf, decide_eq_true he]; rfl)

theorem waitTest_stays {s : State} {q : Entry} (h : s.examine q ≠ .waiting ∨ s.inFlight q.id = true) :
    s.waitTest q = s.tested q.id := by
  rw [State.waitTest]
  refine if_neg fun hc => ?_
  rw [Bool.and_eq_true, Bool.not_eq_true', decide_eq_true_iff] at hc
  exact h.elim (fun hne => hne hc.2) fun hf => Bool.false_ne_true (hc.1.symm.trans hf)

theorem tested_entry? {s : State} {q : Entry} {k : Nat} (hk : s.fwd[k]? = some q) (hn : (s.fwd.map Entry.id).Nodup) :
    (s.tested q.id).entry? q.id = some { q with waitDue := false } := find?_map_tested hk hn

theorem tested_buffers (s : State) (id : Nat) : (s.tested id).buffers = s.buffers := by
  show s.free + one s.rx.holds + one s.portHolds + (s.fwd.map _).length + s.ring.length = _
  rw [List.length_map]
  rfl

/-- Settles O48. -/
theorem waitLimitAndRouteAgeExpire : Obligations.WaitLimitAndRouteAgeExpire := by
  unfold Obligations.WaitLimitAndRouteAgeExpire
  refine ⟨fun s k q p h => ⟨fun hk hd ha he hf hn hno => ?_, fun hk hd ha hstay =>
    ⟨_, (exec_waitLimitExpiry h hk hd ha).trans (congrArg (Host.Outcome.next ∘ State.finish) (waitTest_stays hstay)),
      finish_ends _⟩,
    fun hp ha => ⟨_, exec_routeAgeExpiry h hp ha, finish_ends _⟩⟩, inFlight_iff⟩
  obtain ⟨a, hdrop⟩ : ∃ a, a = (s.tested q.id).dropEntry q.id .noPath := ⟨_, rfl⟩
  have hexec : exec (.waitLimitExpiry k) s = .next a.finish := by
    rw [exec_waitLimitExpiry h hk hd ha, waitTest_waiting he hf, hdrop]
  have hends := finish_ends a
  have hchooses : a.chooses = false := by
    rw [hdrop, dropEntry_chooses]
    exact hno
  have hstill : a.still = s.still := hdrop ▸ dropEntry_still _ _ _
  obtain ⟨hfwd, hslots, hqueue, -⟩ := hends.quiet hchooses
  have hrecorded : a = ((s.tested q.id).withdrawn q.id).recordDrop { q with waitDue := false } .noPath :=
    hdrop.trans (dropEntry_eq (tested_entry? hk hn) .noPath)
  obtain ⟨x, n, hw⟩ := withdrawn_eq (s.tested q.id) q.id
  refine ⟨_, hexec, hdrop ▸ hends, ?_, hends.host.trans (hdrop ▸ dropEntry_host _ _ _),
    hends.duty.trans (congrArg (fun y => y.1) hstill), hends.check.trans (congrArg (fun y => y.2.1) hstill),
    hends.relayed.trans (congrArg (fun y => y.2.2.2.1) hstill),
    hends.route.trans (congrArg (fun y => y.2.2.1) hstill),
    hends.table.trans (hdrop ▸ dropEntry_table _ _ _),
    hends.buffers.trans (hdrop ▸ (dropEntry_buffers _ _ _).trans (tested_buffers s q.id)),
    fun i r ht hi hr => ?_, fun tag ht => ?_⟩
  · rw [hfwd, hrecorded, recordDrop_fwd, hw]
    exact eraseP_map_tested hk hn
  · rw [rec?_congr hslots, hrecorded, recordDrop_transit_noPath _ (q := { q with waitDue := false }) ht hi]
    have hr' : ((s.tested q.id).withdrawn q.id).rec? i = some r := by
      rw [hw]
      exact hr
    rw [modRec_eq _ _ hr', rec?_setSlot _ _ _ _ (rec?_lt _ hr'), if_pos rfl]
    rfl
  · have hreports : a.finish.reports = a.reports := congrArg Prod.fst hqueue
    have hoverrun : a.finish.overrun = a.overrun := congrArg Prod.snd hqueue
    rw [hreports, hoverrun, hrecorded, recordDrop_tagged _ (q := { q with waitDue := false }) .noPath ht, hw]
    exact putReport_drop _ q.dest none tag .noPath q.seq

end Sys2Proof.Machine

/-! The final check (R19): when a chosen frame may still be sent, and the frame it goes out as (R2, R15). -/

namespace Sys2Proof.Machine

theorem listening_iff (r : Record) : r.listening = true ↔ r.advert.mode ≠ .doze ∨ r.windowEnd.isSome = true := by
  rw [Record.listening, Bool.or_eq_true, decide_eq_true_iff]

theorem fits_iff (r : Record) (e : Entry) :
    fits r e = true ↔ ∃ m, r.terms = some m ∧ e.payload.length ≤ m.maxPayload := by
  unfold fits
  split
  · next m hm => simp [hm]
  · next hm => simp [hm]

theorem recOf_eq_some_iff (s : State) (a : Addr) (r : Record) :
    s.recOf a = some r ↔ ∃ j, s.findPeer a = some j ∧ s.rec? j = some r := Option.bind_eq_some_iff

theorem sendable_eq_some_iff (s : State) (a : Addr) (r : Record) : s.sendable a = some r ↔
    ∃ j, s.findPeer a = some j ∧ s.rec? j = some r ∧ r.link = .up ∧ r.listening = true := by
  unfold State.sendable
  split
  · next q hq =>
    obtain ⟨j, hj, hr⟩ := (recOf_eq_some_iff s a q).mp hq
    rw [Option.ite_none_right_eq_some, Bool.and_eq_true, decide_eq_true_iff, Option.some.injEq]
    constructor
    · rintro ⟨⟨hu, hl⟩, rfl⟩
      exact ⟨j, hj, hr, hu, hl⟩
    · rintro ⟨k, hk, hkr, hu, hl⟩
      obtain rfl : j = k := Option.some.inj (hj.symm.trans hk)
      obtain rfl : q = r := Option.some.inj (hr.symm.trans hkr)
      exact ⟨⟨hu, hl⟩, rfl⟩
  · next hn =>
    refine iff_of_false (Option.some_ne_none _).symm fun ⟨j, hj, hr, _⟩ => ?_
    rw [(recOf_eq_some_iff s a r).mpr ⟨j, hj, hr⟩] at hn
    cases hn

/-! ## The launch of each kind (R19) -/

section
variable (s : State) (l : Launch)

theorem launchData_eq_some_iff (id : Nat) (peer : Addr) : s.launchData id peer = some l ↔
    ∃ e i r m, s.entry? id = some e ∧ s.resolve e.dest = some i ∧ s.rec? i = some r ∧ r.peer = peer ∧
      r.terms = some m ∧ e.payload.length ≤ m.maxPayload ∧ r.listening = true ∧
      l = { addressee := some r.peer, cls := r.trim.rUsed,
            frame := frameOf (s.headerTo .data r r.trim.step r.trim.rUsed) e.body, attempt := e.attempts + 1 } := by
  unfold State.launchData
  split
  · next hn => simp [hn]
  · next e he =>
    split
    · next hn =>
      refine iff_of_false (Option.some_ne_none _).symm fun ⟨e', i, r, m, he', hi, hr, _⟩ => ?_
      obtain rfl : e = e' := Option.some.inj (he.symm.trans he')
      rw [hi] at hn
      exact nomatch hn.symm.trans hr
    · next r hr =>
      obtain ⟨i, hi, hri⟩ := Option.bind_eq_some_iff.mp hr
      rw [Option.ite_none_right_eq_some, Bool.and_eq_true, Bool.and_eq_true, decide_eq_true_iff, fits_iff,
        Option.some.injEq]
      constructor
      · rintro ⟨⟨⟨hp, m, hm, hfit⟩, hlis⟩, rfl⟩
        exact ⟨e, i, r, m, he, hi, hri, hp, hm, hfit, hlis, rfl⟩
      · rintro ⟨e', i', r', m, he', hi', hr', hp, hm, hfit, hlis, rfl⟩
        obtain rfl : e = e' := Option.some.inj (he.symm.trans he')
        obtain rfl : i = i' := Option.some.inj (hi.symm.trans hi')
        obtain rfl : r = r' := Option.some.inj (hri.symm.trans hr')
        exact ⟨⟨⟨hp, m, hm, hfit⟩, hlis⟩, rfl⟩

theorem launchPage_eq_some_iff (i id : Nat) : s.launchPage i id = some l ↔
    ∃ r x p, s.rec? i = some r ∧ r.exch = some x ∧ x.page = some p ∧ p.id = id ∧ r.listening = true ∧
      l = { addressee := some r.peer, cls := 0, frame := frameOf (s.headerTo .offer r 31 0) p.bytes,
            attempt := p.attempts + 1 } := by
  unfold State.launchPage
  split
  · next r x p hp =>
    obtain ⟨hr, hx, hpage, hid⟩ := pendingPage_some s hp
    rw [Option.ite_none_right_eq_some, Option.some.injEq]
    constructor
    · rintro ⟨hlis, rfl⟩
      exact ⟨r, x, p, hr, hx, hpage, hid, hlis, rfl⟩
    · rintro ⟨r', x', p', hr', hx', hpage', -, hlis, rfl⟩
      obtain rfl : r = r' := Option.some.inj (hr.symm.trans hr')
      obtain rfl : x = x' := Option.some.inj (hx.symm.trans hx')
      obtain rfl : p = p' := Option.some.inj (hpage.symm.trans hpage')
      exact ⟨hlis, rfl⟩
  · next hn =>
    refine iff_of_false (Option.some_ne_none _).symm fun ⟨r, x, p, hr, hx, hpage, hid, _⟩ => ?_
    rw [pendingPage_eq hr hx hpage hid] at hn
    cases hn

theorem launchProbe_eq_some_iff (id : Nat) : s.launchProbe id = some l ↔
    ∃ k rd c r, s.check.state = .pending k id rd ∧ s.check.record = some c ∧ s.sendable c.peer = some r ∧
      l = { addressee := some r.peer, cls := r.trim.rUsed, attempt := 0,
            frame := frameOf (s.headerTo .probe r r.trim.step r.trim.rUsed) (probeBody c k) } := by
  unfold State.launchProbe
  split
  · next k pid rd c hst hrec =>
    rw [Option.ite_none_right_eq_some, Option.map_eq_some_iff]
    constructor
    · rintro ⟨rfl, r, hr, rfl⟩
      exact ⟨k, rd, c, r, hst, hrec, hr, rfl⟩
    · rintro ⟨k', rd', c', r, hst', hrec', hr, rfl⟩
      obtain rfl : c = c' := Option.some.inj (hrec.symm.trans hrec')
      obtain ⟨rfl, rfl, rfl⟩ := CheckState.pending.inj (hst.symm.trans hst')
      exact ⟨rfl, r, hr, rfl⟩
  · next hno =>
    exact iff_of_false (Option.some_ne_none _).symm fun ⟨k, rd, c, r, hst, hrec, _⟩ => hno k id rd c hst hrec

theorem launchReflect_eq_some_iff (id : Nat) : s.launchReflect id = some l ↔
    ∃ q r, s.tx.reflect = some q ∧ q.id = id ∧ s.sendable q.prober = some r ∧
      l = { addressee := some r.peer, cls := r.trim.rUsed, attempt := 0,
            frame := frameOf (s.headerTo .reflect r r.trim.step r.trim.rUsed) q.body } := by
  unfold State.launchReflect
  split
  · next q hq =>
    rw [Option.ite_none_right_eq_some, Option.map_eq_some_iff]
    constructor
    · rintro ⟨hid, r, hr, rfl⟩
      exact ⟨q, r, hq, hid, hr, rfl⟩
    · rintro ⟨q', r, hq', hid, hr, rfl⟩
      obtain rfl : q = q' := Option.some.inj (hq.symm.trans hq')
      exact ⟨hid, r, hr, rfl⟩
  · next hn =>
    refine iff_of_false (Option.some_ne_none _).symm fun ⟨q, r, hq, _⟩ => ?_
    rw [hn] at hq
    cases hq

end

/-- The echo list has one entry for each UP record, in slot order (R15). -/
theorem echoList_eq (l : List (Option Record)) : echoList l = l.filterMap fun o => o.bind fun r =>
    if r.link = .up then some { peer := r.peer, margin := (Int.tdiv r.F 16).toNat } else none := by
  rw [echoList]
  refine congrArg (fun g => l.filterMap g) (funext fun o => ?_)
  cases o <;> rfl

/-- Settles O37. -/
theorem finalCheckFillsTheFrame : Obligations.FinalCheckFillsTheFrame := by
  unfold Obligations.FinalCheckFillsTheFrame
  refine ⟨fun s id i peer => ⟨fun l => ?_, fun l => ?_, fun l => ?_, fun l => ?_, ?_⟩, fun h body s id => ⟨?_, rfl⟩⟩
  · rw [State.launch, launchData_eq_some_iff]
    constructor
    · rintro ⟨e, j, r, m, he, hj, hr, rfl, hm, hfit, hlis, rfl⟩
      exact ⟨e, j, r, m, he, hj, hr, rfl, hm, hfit, (listening_iff r).mp hlis, rfl⟩
    · rintro ⟨e, j, r, m, he, hj, hr, rfl, hm, hfit, hlis, rfl⟩
      exact ⟨e, j, r, m, he, hj, hr, rfl, hm, hfit, (listening_iff r).mpr hlis, rfl⟩
  · rw [State.launch, launchPage_eq_some_iff]
    constructor
    · rintro ⟨r, x, p, hr, hx, hp, hid, hlis, rfl⟩
      exact ⟨r, x, p, hr, hx, hp, hid, (listening_iff r).mp hlis, rfl⟩
    · rintro ⟨r, x, p, hr, hx, hp, hid, hlis, rfl⟩
      exact ⟨r, x, p, hr, hx, hp, hid, (listening_iff r).mpr hlis, rfl⟩
  · rw [State.launch, launchProbe_eq_some_iff]
    constructor
    · rintro ⟨k, rd, c, r, hst, hrec, hr, rfl⟩
      obtain ⟨j, hj, hjr, hu, hlis⟩ := (sendable_eq_some_iff s _ r).mp hr
      exact ⟨k, rd, c, j, r, hst, hrec, hj, hjr, hu, (listening_iff r).mp hlis, rfl⟩
    · rintro ⟨k, rd, c, j, r, hst, hrec, hj, hjr, hu, hlis, rfl⟩
      exact ⟨k, rd, c, r, hst, hrec, (sendable_eq_some_iff s _ r).mpr ⟨j, hj, hjr, hu, (listening_iff r).mpr hlis⟩, rfl⟩
  · rw [State.launch, launchReflect_eq_some_iff]
    constructor
    · rintro ⟨q, r, hq, hid, hr, rfl⟩
      obtain ⟨j, hj, hjr, hu, hlis⟩ := (sendable_eq_some_iff s _ r).mp hr
      exact ⟨q, j, r, hq, hid, hj, hjr, hu, (listening_iff r).mp hlis, rfl⟩
    · rintro ⟨q, j, r, hq, hid, hj, hjr, hu, hlis, rfl⟩
      exact ⟨q, r, hq, hid, (sendable_eq_some_iff s _ r).mpr ⟨j, hj, hjr, hu, (listening_iff r).mpr hlis⟩, rfl⟩
  · refine ⟨s.launchBeacon, rfl, rfl, rfl, rfl, ?_⟩
    rw [State.launchBeacon, echoList_eq, State.ownAdvert]
    cases s.nextHop <;> rfl
  · rw [frameOf, withCheck_length]

end Sys2Proof.Machine

/-! What hearing a peer does to the table (R26 to R30), and the observation of a frame (R12). -/

namespace Sys2Proof.Machine

/-! ## The record to evict (R28) -/

/-- A record that may be evicted (R28). -/
def Record.evictable (r : Record) : Prop := r.link = .heard ∨ r.link = .lost

theorem evictFrom_spared {r : Record} (h : ¬r.evictable) (l : List (Option Record)) (k : Nat) (best : Option (Nat × Nat)) :
    evictFrom (some r :: l) k best = evictFrom l (k + 1) best := if_neg h

theorem evictFrom_first {r : Record} (h : r.evictable) (l : List (Option Record)) (k : Nat) :
    evictFrom (some r :: l) k none = evictFrom l (k + 1) (some (k, r.lastHeard)) := if_pos h

theorem evictFrom_older {r : Record} (h : r.evictable) (l : List (Option Record)) (k : Nat) (b : Nat × Nat) :
    evictFrom (some r :: l) k (some b) =
      evictFrom l (k + 1) (if r.lastHeard < b.2 then some (k, r.lastHeard) else some b) := if_pos h

/-- With no record to evict the search ends as it began. -/
theorem evictFrom_of_none {l : List (Option Record)} (k : Nat) (best : Option (Nat × Nat))
    (h : ∀ q, some q ∈ l → ¬q.evictable) : evictFrom l k best = best := by
  induction l generalizing k with
  | nil => rfl
  | cons o l ih =>
    have hl : ∀ q, some q ∈ l → ¬q.evictable := fun q hq => h q (List.mem_cons_of_mem o hq)
    cases o with
    | none => exact ih (k + 1) hl
    | some q => rw [evictFrom_spared (h q List.mem_cons_self), ih (k + 1) hl]

/-- The oldest found so far stays where none later is older. -/
theorem evictFrom_stays {l : List (Option Record)} (k : Nat) {b : Nat × Nat}
    (h : ∀ q, some q ∈ l → q.evictable → b.2 ≤ q.lastHeard) : evictFrom l k (some b) = some b := by
  induction l generalizing k with
  | nil => rfl
  | cons o l ih =>
    have hl : ∀ q, some q ∈ l → q.evictable → b.2 ≤ q.lastHeard := fun q hq => h q (List.mem_cons_of_mem o hq)
    cases o with
    | none => exact ih (k + 1) hl
    | some q =>
      by_cases he : q.evictable
      · rw [evictFrom_older he, if_neg (not_lt.mpr (h q List.mem_cons_self he)), ih (k + 1) hl]
      · rw [evictFrom_spared he, ih (k + 1) hl]

/-- The record evicted: older than every one before it, and not younger than any after it (R28). -/
theorem evictFrom_oldest {l u : List (Option Record)} {r : Record} (k : Nat) (best : Option (Nat × Nat))
    (he : r.evictable) (hbest : ∀ b, best = some b → r.lastHeard < b.2)
    (hl : ∀ q, some q ∈ l → q.evictable → r.lastHeard < q.lastHeard)
    (hu : ∀ q, some q ∈ u → q.evictable → r.lastHeard ≤ q.lastHeard) :
    evictFrom (l ++ some r :: u) k best = some (k + l.length, r.lastHeard) := by
  induction l generalizing k best with
  | nil =>
    cases best with
    | none => exact (evictFrom_first he u k).trans (evictFrom_stays (k + 1) hu)
    | some b =>
      rw [List.nil_append, evictFrom_older he, if_pos (hbest b rfl)]
      exact evictFrom_stays (k + 1) hu
  | cons o l ih =>
    have hl' : ∀ q, some q ∈ l → q.evictable → r.lastHeard < q.lastHeard := fun q hq => hl q (List.mem_cons_of_mem o hq)
    have hnext (best' : Option (Nat × Nat)) (hb : ∀ b, best' = some b → r.lastHeard < b.2) :
        evictFrom (l ++ some r :: u) (k + 1) best' = some (k + (o :: l).length, r.lastHeard) := by
      rw [ih (k + 1) best' hb hl', List.length_cons, Nat.add_right_comm, Nat.add_assoc]
    rw [List.cons_append]
    cases o with
    | none => exact hnext best hbest
    | some q =>
      by_cases hq : q.evictable
      · have hold : r.lastHeard < q.lastHeard := hl q List.mem_cons_self hq
        cases best with
        | none =>
          rw [evictFrom_first hq]
          exact hnext _ fun b hb => by cases hb; exact hold
        | some b =>
          rw [evictFrom_older hq]
          refine hnext _ fun b' hb => ?_
          split at hb
          · cases hb
            exact hold
          · exact hbest b' hb
      · rw [evictFrom_spared hq]
        exact hnext best hbest

section
variable {s : State}

theorem emptySlot_eq_some {i : Nat} (hi : i < s.slots.length) (hn : s.rec? i = none)
    (hlow : ∀ k, k < i → ∃ r, s.rec? k = some r) : s.emptySlot = some i := by
  refine List.findIdx?_eq_some_iff_getElem.mpr ⟨hi, ?_, fun k hk => ?_⟩
  · have h := hn
    rw [State.rec?, List.getElem?_eq_getElem hi] at h
    exact Option.isNone_iff_eq_none.mpr h
  · obtain ⟨r, hr⟩ := hlow k hk
    rw [(List.getElem?_eq_some_iff.mp ((rec?_eq_some_iff s k r).mp hr)).2]
    exact Bool.false_ne_true

theorem emptySlot_eq_none (h : ∀ k, k < s.slots.length → ∃ r, s.rec? k = some r) : s.emptySlot = none := by
  refine List.findIdx?_eq_none_iff.mpr fun o ho => ?_
  obtain ⟨k, hk, rfl⟩ := List.mem_iff_getElem.mp ho
  obtain ⟨r, hr⟩ := h k hk
  rw [(List.getElem?_eq_some_iff.mp ((rec?_eq_some_iff s k r).mp hr)).2]
  rfl

theorem makeRoom_empty {i : Nat} (h : s.emptySlot = some i) : s.makeRoom = (s, some i) := by
  rw [State.makeRoom, h]

theorem makeRoom_full (he : s.emptySlot = none) (h : evictFrom s.slots 0 none = none) : s.makeRoom = (s, none) := by
  rw [State.makeRoom, he, h]

theorem makeRoom_evicts {b : Nat × Nat} (he : s.emptySlot = none) (h : evictFrom s.slots 0 none = some b) :
    s.makeRoom = (s.removeRecord b.1 .evicted, some b.1) := by
  rw [State.makeRoom, he, h]

/-- The record of the oldest last-heard time, the lower slot among equals, is the one evicted (R28). -/
theorem evictFrom_slots {i : Nat} {r : Record} (hr : s.rec? i = some r) (he : r.evictable)
    (hold : ∀ k q, s.rec? k = some q → q.evictable →
      r.lastHeard < q.lastHeard ∨ r.lastHeard = q.lastHeard ∧ i ≤ k) :
    evictFrom s.slots 0 none = some (i, r.lastHeard) := by
  obtain ⟨hi, hget⟩ := List.getElem?_eq_some_iff.mp ((rec?_eq_some_iff s i r).mp hr)
  have hsplit : s.slots = s.slots.take i ++ some r :: s.slots.drop (i + 1) := by
    rw [← hget, List.getElem_cons_drop, List.take_append_drop]
  have hlen : (s.slots.take i).length = i := List.length_take_of_le hi.le
  rw [hsplit, evictFrom_oldest 0 none he (fun b hb => nomatch hb) (fun q hq hev => ?_) fun q hq hev => ?_, hlen, Nat.zero_add]
  · obtain ⟨k, hk, hkq⟩ := List.mem_iff_getElem.mp hq
    rw [List.getElem_take] at hkq
    rw [hlen] at hk
    have hkr : s.rec? k = some q := (rec?_eq_some_iff s k q).mpr (hkq ▸ List.getElem?_eq_getElem (by omega))
    rcases hold k q hkr hev with h | ⟨-, h⟩
    · exact h
    · exact absurd hk (not_lt.mpr h)
  · obtain ⟨k, hk⟩ := (mem_slots_iff s q).mp (List.mem_of_mem_drop hq)
    rcases hold k q hk hev with h | ⟨h, -⟩
    · exact h.le
    · exact h.le

end

/-! ## Refresh and entry (R26, R27, R29, R30) -/

/-- A record of R27, its derived values computed (R107 to R109). -/
def Record.newcomer (peer : Addr) (nowMs m : Nat) (a : Advert) : Record :=
  { peer := peer, link := .heard, lastHeard := nowMs, silence := 0, advert := a, windowEnd := none, F := 16 * m,
    L := 16 * m,
    fade := { state := .clear, count := 0, start := none, maxDef := 0, shadow := false, brief := none, settle := none },
    trim := { echo := none, step := 31, state := .idle, count := 0, timer := none, clamped := false, last := none,
              rUsed := 0 },
    notEchoed := 0, terms := none, linkCost := 64, pathCost := min 4095 (a.cost + 64), eligible := false,
    exch := none, holdoff := none, initWait := none, failStreak := 0, hopDrops := 0, loopDrops := 0, pathDrops := 0 }

theorem admitted_eq (c : Settings) (peer : Addr) (nowMs m : Nat) (a : Advert) :
    Record.admitted c peer nowMs m a = Record.newcomer peer nowMs m a := rfl

/-- A newcomer joins the table in a slot, with its report (R26, R27). -/
def State.joined (peer : Addr) (i : Nat) (new : Record) (u : State) : State :=
  { State.putReport peer (some i) (.neighbour .admitted .none (some .heard)) (u.setSlot i (some new)) with
    workAvailable := true }

section
variable {s : State} (peer : Addr) (m : Nat) (a : Advert)

theorem admitPeer_joins {u : State} {i : Nat} (h : s.makeRoom = (u, some i)) (hcfg : u.host = s.host) :
    s.admitPeer peer m a = (u.joined peer i (Record.newcomer peer s.nowMs m a), some i) := by
  have hnow : u.nowMs = s.nowMs := nowMs_congr hcfg
  rw [State.admitPeer, h]
  dsimp only
  rw [admitted_eq, hnow]
  rfl

theorem admitPeer_ignored (h : s.makeRoom = (s, none)) : s.admitPeer peer m a = (s, none) := by
  rw [State.admitPeer, h]

end

section
variable {s : State} {f : RxFrame} {i : Nat} {r : Record} (w : Option Advert) (h : s.findPeer f.header.src = some i)
  (hr : s.rec? i = some r)
include h hr

/-- A known sender is refreshed (R29). -/
theorem hear_known (hl : r.link ≠ .lost) : s.hear f w =
    (s.setSlot i (some { r with lastHeard := s.nowMs, silence := 0 }), some (i, false)) := by
  have href : s.refresh i = (s.setSlot i (some { r with lastHeard := s.nowMs, silence := 0 }), false) := by
    unfold State.refresh
    rw [hr]
    exact if_neg hl
  unfold State.hear
  rw [h]
  dsimp only
  rw [href]

/-- A LOST sender is HEARD again, and its measurement is a seed (R30, R66). -/
theorem hear_lost (hl : r.link = .lost) : s.hear f w =
    ({ State.putReport r.peer (some i) (.neighbour .heard .none (some .heard)) (s.setSlot i
        (some { r with lastHeard := s.nowMs, silence := 0, link := .heard, failStreak := 0, notEchoed := 0 })) with
        workAvailable := true }, some (i, true)) := by
  have href : s.refresh i = ({ State.putReport r.peer (some i) (.neighbour .heard .none (some .heard)) (s.setSlot i
        (some { r with lastHeard := s.nowMs, silence := 0, link := .heard, failStreak := 0, notEchoed := 0 })) with
        workAvailable := true }, true) := by
    unfold State.refresh
    rw [hr]
    exact if_pos hl
  unfold State.hear
  rw [h]
  dsimp only
  rw [href]

end

section
variable {s : State} {f : RxFrame} (h : s.findPeer f.header.src = none)
include h

theorem hear_unwelcome : s.hear f none = (s, none) := by
  unfold State.hear
  rw [h]

theorem hear_below {a : Advert} (hm : normalise f.raw f.header.step < s.cfg.floor) : s.hear f (some a) = (s, none) := by
  unfold State.hear
  rw [h]
  exact if_neg (not_le.mpr hm)

/-- An unknown sender whose frame may bring it in, at or above the floor (R26). -/
theorem hear_new {a : Advert} (hm : s.cfg.floor ≤ normalise f.raw f.header.step) : s.hear f (some a) =
    ((s.admitPeer f.header.src (normalise f.raw f.header.step) a).1,
      (s.admitPeer f.header.src (normalise f.raw f.header.step) a).2.map fun i => (i, true)) := by
  unfold State.hear
  rw [h]
  exact if_pos hm

end

/-! ## The observation (R12, R62, R92) -/

section
variable {s t : State} {f : RxFrame} {w : Option Advert}

theorem observe_ignored (h : s.hear f w = (t, none)) (echo : Option Nat) : s.observe f w echo = (t, none) := by
  rw [State.observe, h]

theorem observe_measured {i : Nat} {seed : Bool} (h : s.hear f w = (t, some (i, seed))) :
    s.observe f w none = (t.measure i (normalise f.raw f.header.step) seed, some i) := by
  rw [State.observe, h]

theorem observe_echoed {i : Nat} {seed : Bool} (h : s.hear f w = (t, some (i, seed))) (e : Nat) :
    s.observe f w (some e) = ((t.takeEcho i e).measure i (normalise f.raw f.header.step) seed, some i) := by
  rw [State.observe, h]

end

section
variable {f : RxFrame} {body : List Byte}

theorem good_iff (f : RxFrame) (body : List Byte) :
    (f.store && checkPasses body) = true ↔ f.store = true ∧ checkPasses body = true := Bool.and_eq_true_iff

theorem admitsWith_offer (hg : f.store = true ∧ checkPasses body = true) (hk : f.header.kind = .offer) :
    admitsWith f body = some Advert.byOffer := by
  rw [admitsWith, if_pos ((good_iff f body).mpr hg), hk]

theorem admitsWith_beacon (hg : f.store = true ∧ checkPasses body = true) (hk : f.header.kind = .beacon) :
    admitsWith f body = (parseBeacon body).map Prod.fst := by
  rw [admitsWith, if_pos ((good_iff f body).mpr hg), hk]

theorem admitsWith_none (h : ¬(f.store = true ∧ checkPasses body = true) ∨
    f.header.kind = .beacon ∧ parseBeacon body = none ∨ f.header.kind ≠ .beacon ∧ f.header.kind ≠ .offer) :
    admitsWith f body = none := by
  by_cases hg : f.store = true ∧ checkPasses body = true
  · rcases h.resolve_left (not_not.mpr hg) with ⟨hk, hp⟩ | ⟨h1, h2⟩
    · rw [admitsWith_beacon hg hk, hp]
      rfl
    · rw [admitsWith, if_pos ((good_iff f body).mpr hg)]
      cases hk : f.header.kind with
      | beacon => exact absurd hk h1
      | offer => exact absurd hk h2
      | _ => rfl
  · exact if_neg fun hc => hg ((good_iff f body).mp hc)

end

/-- The slot of an address is the lowest that holds a record of it. -/
theorem findPeer_eq_some_iff (s : State) (a : Addr) (i : Nat) : s.findPeer a = some i ↔
    (∃ r, s.rec? i = some r ∧ r.peer = a) ∧ ∀ k r, s.rec? k = some r → r.peer = a → i ≤ k := by
  rw [State.findPeer, List.findIdx?_eq_some_iff_getElem]
  constructor
  · rintro ⟨hi, hp, hlow⟩
    refine ⟨?_, fun k r hk hr => ?_⟩
    · cases hs : s.slots[i] with
      | none =>
        rw [hs] at hp
        cases hp
      | some r =>
        rw [hs] at hp
        exact ⟨r, (rec?_eq_some_iff s i r).mpr (hs ▸ List.getElem?_eq_getElem hi), of_decide_eq_true hp⟩
    · by_contra hc
      have hget := (List.getElem?_eq_some_iff.mp ((rec?_eq_some_iff s k r).mp hk)).2
      have hno := hlow k (not_le.mp hc)
      rw [hget] at hno
      exact hno (decide_eq_true hr)
  · rintro ⟨⟨r, hr, hp⟩, hlow⟩
    obtain ⟨hi, hget⟩ := List.getElem?_eq_some_iff.mp ((rec?_eq_some_iff s i r).mp hr)
    refine ⟨hi, hget ▸ decide_eq_true hp, fun j hj => ?_⟩
    cases hs : s.slots[j] with
    | none => exact Bool.false_ne_true
    | some q =>
      have hq : s.rec? j = some q := (rec?_eq_some_iff s j q).mpr (hs ▸ List.getElem?_eq_getElem _)
      exact fun hc => absurd hj (not_lt.mpr (hlow j q hq (of_decide_eq_true hc)))

/-- Settles O32. -/
theorem hearingAPeerKeepsTheTable : Obligations.HearingAPeerKeepsTheTable := by
  unfold Obligations.HearingAPeerKeepsTheTable
  refine ⟨fun s f w => ?_, fun f own body hk => ⟨fun hd => ?_, fun hd => ?_⟩, fun f body => ?_, fun s a i =>
    ⟨?_, findPeer_eq_some_iff s a i, fun o hi => ⟨rfl, fun k => rec?_setSlot s i k o hi⟩⟩, fun s i =>
    ⟨fun r => rec?_eq_some_iff s i r, ?_⟩⟩
  · intro src m
    refine ⟨fun i r hi hr => ⟨hear_known w hi hr, hear_lost w hi hr⟩, fun hn hw => ?_, fun a hn hw hm => ?_,
      fun t h => observe_ignored h, fun t i seed h => ⟨observe_measured h, observe_echoed h⟩⟩
    · cases w with
      | none => exact hear_unwelcome hn
      | some a => exact hear_below hn (hw.resolve_left (Option.some_ne_none a))
    · intro new joins full
      subst hw
      have hhear := hear_new (a := a) hn hm
      refine ⟨fun i hi he hlow => ?_, fun hfull hlinks => ?_, fun i r hfull hr hlink hold => ?_⟩
      · rw [hhear, admitPeer_joins _ _ _ (makeRoom_empty (emptySlot_eq_some hi he hlow)) rfl]
        rfl
      · have hevict : evictFrom s.slots 0 none = none := evictFrom_of_none 0 none fun q hq hev => by
          obtain ⟨k, hk⟩ := (mem_slots_iff s q).mp hq
          rcases hlinks k q hk with h | h <;> rcases hev with h' | h' <;> exact nomatch h.symm.trans h'
        rw [hhear, admitPeer_ignored _ _ _ (makeRoom_full (emptySlot_eq_none hfull) hevict)]
        rfl
      · have hroom := makeRoom_evicts (emptySlot_eq_none hfull) (evictFrom_slots hr hlink hold)
        rw [hhear, admitPeer_joins _ _ _ hroom (by simp)]
        rfl
  · rw [RxFrame.echoCarried, if_neg hk, if_pos hd]
  · rw [RxFrame.echoCarried, if_neg hk, if_neg hd]
  · intro good
    exact ⟨fun hg hk => admitsWith_offer hg hk, fun a l hg hk hp => by rw [admitsWith_beacon hg hk, hp]; rfl,
      admitsWith_none⟩
  · exact findPeer_eq_none_iff s a
  · rw [Option.eq_none_iff_forall_ne_some]
    exact forall_congr' fun r => not_congr (rec?_eq_some_iff s i r)

end Sys2Proof.Machine

/-! Beacons taken apart: the body read (R170), the advertisement, the not-echoed streak and the peer window (R31, R35,
R146). -/

namespace Sys2Proof.Machine

/-! ## The body of a beacon (R170) -/

theorem mode_ofCode_none_iff (n : Nat) : DutyMode.ofCode n = none ↔ 2 < n := by
  unfold DutyMode.ofCode
  split <;> simp_all
  omega

theorem code_of_mode {n : Nat} {m : DutyMode} (h : DutyMode.ofCode n = some m) : n = m.code := by
  unfold DutyMode.ofCode at h
  split at h <;> cases h <;> rfl

theorem parseEchoes_length (n : Nat) (bs : List Byte) : (parseEchoes n bs).length = n := by
  induction n generalizing bs with
  | zero => rfl
  | succ n ih => rw [parseEchoes, List.length_cons, ih]

theorem byteAt_drop (bs : List Byte) (k i : Nat) : byteAt (bs.drop k) i = byteAt bs (k + i) := by
  rw [byteAt, byteAt, List.getD_eq_getElem?_getD, List.getD_eq_getElem?_getD, List.getElem?_drop]

/-- The entries of the echo list stand four bytes apart. -/
theorem parseEchoes_getElem? {n : Nat} {bs : List Byte} {k : Nat} {e : EchoEntry}
    (h : (parseEchoes n bs)[k]? = some e) :
    k < n ∧ e = { peer := addrOf (natBE ((bs.drop (4 * k)).take 2)), margin := byteAt bs (4 * k + 2) } := by
  induction n generalizing bs k with
  | zero => cases h
  | succ n ih =>
    rw [parseEchoes] at h
    cases k with
    | zero => exact ⟨Nat.succ_pos n, (Option.some.inj h).symm⟩
    | succ k =>
      obtain ⟨hk, he⟩ := ih h
      rw [List.drop_drop, byteAt_drop] at he
      refine ⟨Nat.succ_lt_succ hk, ?_⟩
      rw [he, show 4 + 4 * k = 4 * (k + 1) by omega, show 4 + (4 * k + 2) = 4 * (k + 1) + 2 by omega]

section
variable (body : List Byte)

theorem parseBeacon_of_mode {m : DutyMode} (h : DutyMode.ofCode (byteAt body 4) = some m) : parseBeacon body =
    if body.length = 12 + 4 * byteAt body 9 ∧ byteAt body 9 ≤ 12 ∧ 10 ≤ natBE ((body.drop 5).take 2) ∧
        natBE ((body.drop 5).take 2) ≤ 100 then
      some ({ cost := min 4095 (natBE (body.take 2)), nextHop := addrOf (natBE ((body.drop 2).take 2)), mode := m,
              window := natBE ((body.drop 5).take 2), gateway := isYes (byteAt body 7), room := isYes (byteAt body 8) },
            parseEchoes (byteAt body 9) (body.drop 10))
    else none := by
  rw [parseBeacon, h]

theorem parseBeacon_eq_none_iff : parseBeacon body = none ↔
    body.length ≠ 12 + 4 * byteAt body 9 ∨ 12 < byteAt body 9 ∨ 2 < byteAt body 4 ∨
      byteAt body 5 * 256 + byteAt body 6 < 10 ∨ 100 < byteAt body 5 * 256 + byteAt body 6 := by
  cases hm : DutyMode.ofCode (byteAt body 4) with
  | none =>
    have hmode := (mode_ofCode_none_iff _).mp hm
    rw [parseBeacon, hm]
    exact iff_of_true rfl (.inr (.inr (.inl hmode)))
  | some m =>
    have hmode : ¬2 < byteAt body 4 := by
      rw [← mode_ofCode_none_iff, hm]
      exact Option.some_ne_none m
    rw [parseBeacon_of_mode body hm]
    by_cases hlen : body.length = 12 + 4 * byteAt body 9
    · have hwindow : natBE ((body.drop 5).take 2) = byteAt body 5 * 256 + byteAt body 6 := natBE_take_two (by omega)
      simp only [hwindow, ite_eq_right_iff, reduceCtorEq, imp_false]
      omega
    · rw [if_neg fun hc => hlen hc.1]
      exact iff_of_true rfl (.inl hlen)

/-- Where each field of a beacon's body stands (12_formats). -/
theorem parseBeacon_fields {a : Advert} {l : List EchoEntry} (h : parseBeacon body = some (a, l)) :
    a.cost = min 4095 (byteAt body 0 * 256 + byteAt body 1) ∧
      a.nextHop.toNat = (byteAt body 2 * 256 + byteAt body 3) % 4096 ∧ byteAt body 4 = a.mode.code ∧
      a.window = byteAt body 5 * 256 + byteAt body 6 ∧ (a.gateway = true ↔ byteAt body 7 ≠ 0) ∧
      (a.room = true ↔ byteAt body 8 ≠ 0) ∧ l.length = byteAt body 9 ∧
      ∀ k e, l[k]? = some e →
        e.peer.toNat = (byteAt body (10 + 4 * k) * 256 + byteAt body (11 + 4 * k)) % 4096 ∧
          e.margin = byteAt body (12 + 4 * k) := by
  cases hm : DutyMode.ofCode (byteAt body 4) with
  | none =>
    rw [parseBeacon, hm] at h
    cases h
  | some m =>
    rw [parseBeacon_of_mode body hm, Option.ite_none_right_eq_some] at h
    obtain ⟨⟨hlen, -⟩, hfields⟩ := h
    cases hfields
    have hcost : natBE (body.take 2) = byteAt body 0 * 256 + byteAt body 1 := natBE_take_two (k := 0) (by omega)
    have hhop : natBE ((body.drop 2).take 2) = byteAt body 2 * 256 + byteAt body 3 := natBE_take_two (by omega)
    refine ⟨congrArg (min 4095) hcost, congrArg (· % 4096) hhop, code_of_mode hm, natBE_take_two (by omega), isYes_iff _,
      isYes_iff _, parseEchoes_length _ _, fun k e he => ?_⟩
    obtain ⟨hk, rfl⟩ := parseEchoes_getElem? he
    have hpeer : natBE (((body.drop 10).drop (4 * k)).take 2) =
        byteAt body (10 + 4 * k) * 256 + byteAt body (11 + 4 * k) := by
      rw [List.drop_drop, natBE_take_two (by omega), show 10 + 4 * k + 1 = 11 + 4 * k by omega]
    refine ⟨congrArg (· % 4096) hpeer, ?_⟩
    dsimp only
    rw [byteAt_drop, show 10 + (4 * k + 2) = 12 + 4 * k by omega]

end

/-! ## The echo list (R35, R92; log 41) -/

theorem listedMargin_none {own : Addr} {l : List EchoEntry} (h : ∀ e ∈ l, e.peer ≠ own) : listedMargin own l = none := by
  rw [listedMargin, List.find?_eq_none.mpr fun e he hc => h e he (of_decide_eq_true hc)]
  rfl

/-- Of the entries that name a station the first counts. -/
theorem listedMargin_first {own : Addr} {l u : List EchoEntry} {e : EchoEntry} (he : e.peer = own)
    (h : ∀ q ∈ l, q.peer ≠ own) : listedMargin own (l ++ e :: u) = some e.margin := by
  have hfind : (l ++ e :: u).find? (fun q => decide (q.peer = own)) = some e := by
    rw [List.find?_append, List.find?_eq_none.mpr fun q hq hc => h q hq (of_decide_eq_true hc)]
    exact List.find?_cons_of_pos (p := fun q : EchoEntry => decide (q.peer = own)) (decide_eq_true he)
  rw [listedMargin, hfind]
  rfl

section
variable {f : RxFrame} {body : List Byte} (own : Addr) (hk : f.header.kind = .beacon)
include hk

theorem echoCarried_unread (h : f.store = false ∨ checkPasses body = false ∨ parseBeacon body = none) :
    f.echoCarried own body = none := by
  rw [RxFrame.echoCarried, if_pos hk]
  rcases h with h | h | h
  · rw [h]
    rfl
  · rw [h, Bool.and_false]
    rfl
  · rw [h]
    split <;> rfl

theorem echoCarried_beacon {a : Advert} {l : List EchoEntry} (hs : f.store = true) (hc : checkPasses body = true)
    (hp : parseBeacon body = some (a, l)) : f.echoCarried own body = listedMargin own l := by
  rw [RxFrame.echoCarried, if_pos hk, hs, hc, hp]
  rfl

theorem handBody_beacon_good (s : State) (i : Nat) {a : Advert} {l : List EchoEntry} (hs : f.store = true)
    (hc : checkPasses body = true) (hp : parseBeacon body = some (a, l)) :
    s.handBody f (some i) body = (s.takeBeacon i a l).openPeerWindow i := by
  simp [State.handBody, hk, hp, hs, hc]

end

/-! ## The advertisement and the not-echoed streak (R31, R35) -/

/-- An advertisement replaced, with the costs and the choice of next hop that follow (R31, R110, R115). -/
def State.readvertised (s : State) (i : Nat) (r : Record) (a : Advert) : State :=
  let r' := Record.costed s.cfg { r with advert := a }
  let u := s.setSlot i (some r')
  if r'.pathCost = r.pathCost ∧ r'.eligible = r.eligible then u else u.reselect

section
variable {s : State} {i : Nat} {r : Record} (h : s.rec? i = some r)
include h

theorem recost_readvertised (a : Advert) :
    (s.setSlot i (some { r with advert := a })).recost i = s.readvertised i r a := by
  have hr : (s.setSlot i (some { r with advert := a })).rec? i = some { r with advert := a } := by
    rw [rec?_setSlot s i i _ (rec?_lt s h), if_pos rfl]
  rw [State.readvertised]
  split
  · next hs => rw [recost_same hr hs, setSlot_setSlot]; rfl
  · next hs => rw [recost_changed hr hs, setSlot_setSlot]; rfl

theorem replaceAdvert_eq (a : Advert) : s.replaceAdvert i a =
    if r.listening = false ∧ (Record.listening { r with advert := a }) = true then
      { s.readvertised i r a with workAvailable := true }
    else s.readvertised i r a := by
  have hcond : (!r.listening && Record.listening { r with advert := a }) = true ↔
      r.listening = false ∧ (Record.listening { r with advert := a }) = true := by
    rw [Bool.and_eq_true, Bool.not_eq_true']
  unfold State.replaceAdvert
  rw [h]
  dsimp only
  rw [recost_readvertised h a]
  by_cases hl : r.listening = false ∧ (Record.listening { r with advert := a }) = true
  · rw [if_pos hl]
    exact if_pos (hcond.mpr hl)
  · rw [if_neg hl]
    exact if_neg fun hc => hl (hcond.mp hc)

theorem replaceAdvert_still (a : Advert) (hl : r.advert.mode ≠ .doze ∨ r.windowEnd.isSome = true ∨ a.mode = .doze) :
    s.replaceAdvert i a = s.readvertised i r a := by
  rw [replaceAdvert_eq h a]
  refine if_neg fun ⟨hno, hyes⟩ => ?_
  have hsleeps : ¬(r.advert.mode ≠ .doze ∨ r.windowEnd.isSome = true) := fun hc =>
    Bool.false_ne_true (hno.symm.trans ((listening_iff r).mpr hc))
  rcases (listening_iff { r with advert := a }).mp hyes with hm | hw
  · rcases hl with h1 | h2 | h3
    · exact hsleeps (.inl h1)
    · exact hsleeps (.inr h2)
    · exact hm h3
  · exact hsleeps (.inr hw)

theorem replaceAdvert_woken (a : Advert) (hd : r.advert.mode = .doze) (hw : r.windowEnd = none) (ha : a.mode ≠ .doze) :
    s.replaceAdvert i a = { s.readvertised i r a with workAvailable := true } := by
  rw [replaceAdvert_eq h a]
  refine if_pos ⟨Bool.eq_false_iff.mpr fun hc => ?_, (listening_iff { r with advert := a }).mpr (.inl ha)⟩
  rcases (listening_iff r).mp hc with hm | hs
  · exact hm hd
  · rw [hw] at hs
    cases hs

theorem countEchoed_not_up (hu : r.link ≠ .up) (b : Bool) : s.countEchoed i b = s := by
  rw [State.countEchoed, h]
  exact if_neg hu

theorem countEchoed_listed (hu : r.link = .up) : s.countEchoed i true = s.setSlot i (some { r with notEchoed := 0 }) := by
  rw [State.countEchoed, h]
  exact if_pos hu

theorem countEchoed_unlisted (hu : r.link = .up) : s.countEchoed i false =
    if 3 ≤ r.notEchoed + 1 then (s.setSlot i (some { r with notEchoed := r.notEchoed + 1 })).loseLink i .notEchoed
    else s.setSlot i (some { r with notEchoed := r.notEchoed + 1 }) := by
  rw [State.countEchoed, h]
  exact if_pos hu

end

/-- Settles O33. -/
theorem beaconBodiesAreTakenApart : Obligations.BeaconBodiesAreTakenApart := by
  unfold Obligations.BeaconBodiesAreTakenApart
  refine ⟨fun s i r hr => ⟨fun a => ⟨replaceAdvert_still hr a, replaceAdvert_woken hr a⟩, countEchoed_not_up hr, fun hu =>
    ⟨countEchoed_listed hr hu, fun hlow => (countEchoed_unlisted hr hu).trans (if_neg (not_le.mpr hlow)),
      fun hhigh => (countEchoed_unlisted hr hu).trans (if_pos hhigh)⟩, fun a l => ⟨fun hl => ?_, fun l1 e l2 hl he h1 => ?_⟩,
    openPeerWindow_doze hr, openPeerWindow_awake hr, fun f body hk hs hc => ⟨fun a l hp =>
      handBody_beacon_good hk s i hs hc hp, fun hp => handBody_beacon_unread s hk i (.inr hp),
      handBody_beacon_none s hk⟩⟩, fun f own body hk => ⟨echoCarried_unread own hk, fun a l hs hc hp => ⟨fun hl => ?_,
    fun l1 e l2 hl he h1 => ?_⟩⟩, fun body => ⟨parseBeacon_eq_none_iff body, fun a l hp => ?_⟩⟩
  · rw [State.takeBeacon, listedMargin_none hl]
    rfl
  · rw [State.takeBeacon, hl, listedMargin_first he h1]
    rfl
  · rw [echoCarried_beacon own hk hs hc hp, listedMargin_none hl]
  · rw [echoCarried_beacon own hk hs hc hp, hl, listedMargin_first he h1]
  · obtain ⟨hcost, hhop, hmode, hrest⟩ := parseBeacon_fields body hp
    exact ⟨hcost, hhop, hmode.trans (by cases a.mode <;> rfl), hrest⟩

end Sys2Proof.Machine

/-! The Relay Unit's taking of DATA (R124 to R126), the seen list (R131) and the return path table (R132). -/

namespace Sys2Proof.Machine

/-! ## The seen list (R131) -/

section
variable {p : Addr × Word16} {l : List (Addr × Word16)}

theorem filter_others_of_not_mem (h : p ∉ l) : (l.filter fun q => decide (q ≠ p)) = l :=
  List.filter_eq_self.mpr fun _ hq => decide_eq_true fun hc => h (hc ▸ hq)

/-- A repeat moves to the newest position. -/
theorem seenInsert_repeat (hlen : l.length ≤ 32) (h : p ∈ l) :
    seenInsert p l = l.filter (fun q => decide (q ≠ p)) ++ [p] := by
  have hfewer : (l.filter fun q => decide (q ≠ p)).length < l.length :=
    List.length_filter_lt_length_iff_exists.mpr ⟨p, h, fun hc => of_decide_eq_true hc rfl⟩
  rw [seenInsert, if_pos (hfewer.trans_le hlen)]

theorem seenInsert_joins (h : p ∉ l) (hlen : l.length < 32) : seenInsert p l = l ++ [p] := by
  rw [seenInsert, filter_others_of_not_mem h, if_pos hlen]

theorem seenInsert_pushes (h : p ∉ l) (hlen : l.length = 32) : seenInsert p l = l.drop 1 ++ [p] := by
  rw [seenInsert, filter_others_of_not_mem h, if_neg (by omega)]

end

/-! ## The return path table (R132) -/

theorem older_iff (a b : ReturnPath) :
    a.older b = true ↔ a.refresh < b.refresh ∨ a.refresh = b.refresh ∧ a.via < b.via := by
  simp [ReturnPath.older]

/-- The entry a full table gives up: the oldest, the lower via slot at equal times. -/
theorem oldestPath_spec {l : List ReturnPath} (h : l ≠ []) : ∃ q ∈ l, oldestPath l = some q ∧
    ∀ p ∈ l, q.refresh < p.refresh ∨ q.refresh = p.refresh ∧ q.via ≤ p.via := by
  induction l with
  | nil => exact absurd rfl h
  | cons p l ih =>
    by_cases hl : l = []
    · subst hl
      exact ⟨p, List.mem_cons_self, rfl, fun x hx => .inr (by rw [List.mem_singleton.mp hx]; exact ⟨rfl, le_rfl⟩)⟩
    · obtain ⟨q, hq, hold, hmin⟩ := ih hl
      rw [oldestPath, hold]
      by_cases hb : q.older p = true
      · refine ⟨q, List.mem_cons_of_mem p hq, if_pos hb, fun x hx => ?_⟩
        rcases List.mem_cons.mp hx with rfl | hx
        · exact ((older_iff q x).mp hb).imp_right fun hv => ⟨hv.1, hv.2.le⟩
        · exact hmin x hx
      · have hnot := mt (older_iff q p).mpr hb
        refine ⟨p, List.mem_cons_self, if_neg hb, fun x hx => ?_⟩
        rcases List.mem_cons.mp hx with rfl | hx
        · exact .inr ⟨rfl, le_rfl⟩
        · have hx' := hmin x hx
          omega

section
variable {origin : Addr} {l : List ReturnPath} (via now : Nat)

theorem learnPath_known (h : ∃ p ∈ l, p.dest = origin) : learnPath origin via now l =
    l.map fun p => if p.dest = origin then { dest := origin, via := via, refresh := now } else p := by
  obtain ⟨p, hp, hd⟩ := h
  exact if_pos (List.any_eq_true.mpr ⟨p, hp, decide_eq_true hd⟩)

theorem learnPath_new (h : ∀ p ∈ l, p.dest ≠ origin) : learnPath origin via now l =
    if l.length < 32 then l ++ [{ dest := origin, via := via, refresh := now }]
    else match oldestPath l with
      | some q => l.erase q ++ [{ dest := origin, via := via, refresh := now }]
      | none => [{ dest := origin, via := via, refresh := now }] := by
  refine (if_neg fun hc => ?_).trans rfl
  obtain ⟨p, hp, hd⟩ := List.any_eq_true.mp hc
  exact h p hp (of_decide_eq_true hd)

theorem learnPath_joins (h : ∀ p ∈ l, p.dest ≠ origin) (hlen : l.length < 32) :
    learnPath origin via now l = l ++ [{ dest := origin, via := via, refresh := now }] :=
  (learnPath_new via now h).trans (if_pos hlen)

theorem learnPath_replaces (h : ∀ p ∈ l, p.dest ≠ origin) (hlen : 32 ≤ l.length) :
    ∃ q ∈ l, (∀ p ∈ l, q.refresh < p.refresh ∨ q.refresh = p.refresh ∧ q.via ≤ p.via) ∧
      learnPath origin via now l = l.erase q ++ [{ dest := origin, via := via, refresh := now }] := by
  obtain ⟨q, hq, hold, hmin⟩ := oldestPath_spec (List.ne_nil_of_length_pos (Nat.lt_of_lt_of_le (by decide) hlen))
  refine ⟨q, hq, hmin, (learnPath_new via now h).trans ?_⟩
  rw [if_neg (not_lt.mpr hlen), hold]

end

/-! ## The buffer of a frame taken (R13) -/

section
variable (s : State)

theorem keepBuffer_free (h : 0 < s.free) :
    s.keepBuffer = { s with free := s.free - 1, rx := { s.rx with holds := true, request := false } } := by
  simp only [State.keepBuffer, State.receiverTakes, Bool.false_eq_true, if_false]
  exact if_pos h

theorem keepBuffer_none (h : s.free = 0) : s.keepBuffer = { s with rx := { s.rx with holds := false, request := true } } := by
  simp only [State.keepBuffer, State.receiverTakes, Bool.false_eq_true, if_false]
  exact if_neg (by rw [h]; exact Nat.lt_irrefl 0)

/-- The receiver's buffer kept moves the pool and the receiver alone. -/
theorem keepBuffer_eq : ∃ x n, s.keepBuffer = { s with rx := x, free := n } := by
  rcases Nat.eq_zero_or_pos s.free with h | h
  · exact ⟨_, s.free, keepBuffer_none s h⟩
  · exact ⟨_, _, keepBuffer_free s h⟩

/-- The pool and the receiver once the frame's buffer is kept. -/
theorem keepBuffer_pool :
    (0 < s.free → s.keepBuffer.free + 1 = s.free ∧ s.keepBuffer.rx = { s.rx with holds := true, request := false }) ∧
    (s.free = 0 → s.keepBuffer.free = 0 ∧ s.keepBuffer.rx = { s.rx with holds := false, request := true }) := by
  refine ⟨fun h => ?_, fun h => ?_⟩
  · rw [keepBuffer_free s h]
    exact ⟨Nat.sub_add_cancel h, rfl⟩
  · rw [keepBuffer_none s h]
    exact ⟨h, rfl⟩

end

/-! ## DATA taken (R124 to R126) -/

section
variable {s : State} {i : Nat} {r : Record} {d : DataBody} {body : List Byte} (h : s.rec? i = some r)
include h

theorem takeData_not_up (hu : r.link ≠ .up) : s.takeData i body = (s, none) := by
  rw [State.takeData, h]
  exact if_neg fun hc => hu (of_decide_eq_true hc)

omit h in
theorem takeData_malformed (hp : parseData body = none) : s.takeData i body = (s, none) := by
  rw [State.takeData, hp]
  split <;> rfl

section
variable (hu : r.link = .up) (hp : parseData body = some d)
include hu hp

/-- A body of an UP sender that is well formed, by the tests of R124. -/
theorem takeData_parsed : s.takeData i body =
    if d.origin = s.cfg.address then
      (s.setSlot i (some { r with loopDrops := min 65535 (r.loopDrops + 1) }), some false)
    else if s.hasSeen d then ({ s with seen := seenInsert (d.origin, d.seq) s.seen }, some false)
    else if s.forHere d then s.deliver i d
    else s.relay i d := by
  rw [State.takeData, hp, ← modRec_eq s (fun r => { r with loopDrops := min 65535 (r.loopDrops + 1) }) h]
  exact if_pos ((isUp_iff _).mpr ⟨r, h, hu⟩)

theorem takeData_loop (ho : d.origin = s.cfg.address) : s.takeData i body =
    (s.setSlot i (some { r with loopDrops := min 65535 (r.loopDrops + 1) }), some false) := by
  rw [takeData_parsed h hu hp, if_pos ho]

theorem takeData_duplicate (ho : d.origin ≠ s.cfg.address) (hs : (d.origin, d.seq) ∈ s.seen) :
    s.takeData i body = ({ s with seen := seenInsert (d.origin, d.seq) s.seen }, some false) := by
  rw [takeData_parsed h hu hp, if_neg ho]
  exact if_pos (decide_eq_true hs)

section
variable (hfresh : d.origin ≠ s.cfg.address ∧ (d.origin, d.seq) ∉ s.seen)
include hfresh

theorem takeData_here (hh : s.forHere d = true) : s.takeData i body = s.deliver i d := by
  rw [takeData_parsed h hu hp, if_neg hfresh.1]
  exact (if_neg fun hc => hfresh.2 (of_decide_eq_true hc)).trans (if_pos hh)

theorem takeData_elsewhere (hh : ¬s.forHere d = true) : s.takeData i body = s.relay i d := by
  rw [takeData_parsed h hu hp, if_neg hfresh.1]
  exact (if_neg fun hc => hfresh.2 (of_decide_eq_true hc)).trans (if_neg hh)

end
end
end

theorem forHere_iff (s : State) (d : DataBody) :
    s.forHere d = true ↔ d.dest = s.cfg.address ∨ d.dest = 0xFFE#12 ∧ s.cfg.gateway = true := by
  rw [State.forHere, Bool.or_eq_true, Bool.and_eq_true, decide_eq_true_iff, decide_eq_true_iff]
  rfl

section
variable {s : State} (i : Nat) {d : DataBody}

theorem deliver_full (h : 12 ≤ s.ring.length) : s.deliver i d = (s, some true) := by
  rw [State.deliver]
  exact if_neg (not_lt.mpr h)

/-- The state of a frame delivered, before its buffer is kept (R125). -/
def State.delivered (s : State) (i : Nat) (d : DataBody) : State :=
  { s with ring := s.ring ++ [{ origin := d.origin, seq := d.seq, payload := d.payload }],
           seen := seenInsert (d.origin, d.seq) s.seen, paths := learnPath d.origin i s.nowMs s.paths,
           workAvailable := true }

theorem deliver_taken (h : s.ring.length < 12) : s.deliver i d = ((s.delivered i d).keepBuffer, some false) := by
  rw [State.deliver]
  exact if_pos h

/-- The queue entry of a frame relayed (R126). -/
def State.relayEntry (s : State) (i : Nat) (d : DataBody) : Entry :=
  { id := s.serial, origin := d.origin, dest := d.dest, seq := d.seq, hop := d.hop - 1, tag := none, attempts := 0,
    entered := s.nowMs, source := some i, payload := d.payload, waitDue := true }

/-- The state of a frame relayed, before its buffer is kept (R126). -/
def State.relayedOn (s : State) (i : Nat) (d : DataBody) : State :=
  { s with fwd := s.fwd ++ [s.relayEntry i d], serial := s.serial + 1,
           seen := seenInsert (d.origin, d.seq) s.seen, paths := learnPath d.origin i s.nowMs s.paths,
           workAvailable := true }

theorem relay_used_up {r : Record} (hr : s.rec? i = some r) (h : d.hop ≤ 1) : s.relay i d =
    ({ s.setSlot i (some { r with hopDrops := min 65535 (r.hopDrops + 1) }) with
        seen := seenInsert (d.origin, d.seq) s.seen }, some false) := by
  rw [State.relay, modRec_eq s _ hr]
  exact if_pos h

theorem relay_full (h : 1 < d.hop) (hf : 40 ≤ s.fwd.length + one s.portHolds) : s.relay i d = (s, some true) := by
  rw [State.relay, if_neg (not_le.mpr h)]
  exact if_neg (not_lt.mpr hf)

theorem relay_taken (h : 1 < d.hop) (hf : s.fwd.length + one s.portHolds < 40) :
    s.relay i d = ((s.relayedOn i d).keepBuffer, some false) := by
  rw [State.relay, if_neg (not_le.mpr h)]
  exact if_pos hf

end

/-! ## The body of a DATA frame (R12, R21, R124, R170) -/

section
variable {f : RxFrame} {body : List Byte} (s : State) (hs : f.store = true) (hc : checkPasses body = true)
include hs

theorem dataBody_unknown : s.dataBody f none body = s := by
  unfold State.dataBody
  exact if_pos hs

include hc

theorem dataBody_good (i : Nat) : s.dataBody f (some i) body =
    match (s.takeData i body).2 with
    | some full => (s.takeData i body).1.askAck f.header full
    | none => (s.takeData i body).1 := by
  unfold State.dataBody
  rw [if_pos hs]
  dsimp only
  rw [if_pos hc]
  rcases s.takeData i body with ⟨u, ack⟩
  cases ack <;> rfl

end

theorem parseData_eq_some_iff (body : List Byte) (d : DataBody) : parseData body = some d ↔
    (9 ≤ body.length ∧ body.length ≤ 1032 ∧ stationAddress (packedFirst body 0) = true ∧ packedSecond body 0 ≠ 0 ∧
      packedSecond body 0 ≠ broadcast) ∧
    d = { origin := packedFirst body 0, dest := packedSecond body 0,
          seq := BitVec.ofNat 16 (natBE ((body.drop 3).take 2)), hop := min 15 (byteAt body 5),
          payload := (bodyBytes body).drop 6 } := by
  rw [parseData, Option.ite_none_right_eq_some, Option.some.injEq, eq_comm (a := d)]

theorem parseData_eq_none_iff (body : List Byte) : parseData body = none ↔
    body.length < 9 ∨ 1032 < body.length ∨ byteAt body 0 * 16 + byteAt body 1 / 16 = 0 ∨
      0xFFD < byteAt body 0 * 16 + byteAt body 1 / 16 ∨ byteAt body 1 % 16 * 256 + byteAt body 2 = 0 ∨
      byteAt body 1 % 16 * 256 + byteAt body 2 = 0xFFF := by
  have horigin : stationAddress (packedFirst body 0) = true ↔
      1 ≤ byteAt body 0 * 16 + byteAt body 1 / 16 ∧ byteAt body 0 * 16 + byteAt body 1 / 16 ≤ 0xFFD := by
    rw [stationAddress, decide_eq_true_iff, packedFirst_toNat]
  have hdest (a : Addr) : packedSecond body 0 = a ↔ byteAt body 1 % 16 * 256 + byteAt body 2 = a.toNat := by
    rw [BitVec.toNat_eq, packedSecond_toNat]
  have hzero := hdest 0
  have hcast := hdest broadcast
  have hsome : parseData body = none ↔ ¬∃ d, parseData body = some d := by
    rw [← Option.isSome_iff_exists, Option.not_isSome_iff_eq_none]
  rw [hsome]
  simp only [parseData_eq_some_iff, exists_and_left, exists_eq, and_true, horigin, ne_eq, hzero, hcast]
  have h0 : (0 : Addr).toNat = 0 := rfl
  have h1 : broadcast.toNat = 0xFFF := rfl
  rw [h0, h1]
  omega

/-- Where each field of a DATA body stands (12_formats). -/
theorem parseData_fields {body : List Byte} {d : DataBody} (h : parseData body = some d) :
    d.origin.toNat = byteAt body 0 * 16 + byteAt body 1 / 16 ∧
      d.dest.toNat = byteAt body 1 % 16 * 256 + byteAt body 2 ∧
      d.seq.toNat = byteAt body 3 * 256 + byteAt body 4 ∧ d.hop = min 15 (byteAt body 5) ∧
      d.payload = (body.take (body.length - 2)).drop 6 := by
  obtain ⟨⟨hlen, -⟩, rfl⟩ := (parseData_eq_some_iff body d).mp h
  have h3 := byteAt_lt body 3
  have h4 := byteAt_lt body 4
  have hseq : natBE ((body.drop 3).take 2) = byteAt body 3 * 256 + byteAt body 4 := natBE_take_two (by omega)
  refine ⟨packedFirst_toNat body 0, packedSecond_toNat body 0, ?_, rfl, rfl⟩
  rw [hseq, BitVec.toNat_ofNat]
  exact Nat.mod_eq_of_lt (by omega)

/-- A frame delivered: the ring, the seen list, the return paths, the pool and the receiver move, and nothing else. -/
theorem delivered_keepBuffer (s : State) (i : Nat) (d : DataBody) :
    let t := (s.delivered i d).keepBuffer
    t.fwd = s.fwd ∧ t.slots = s.slots ∧ t.reports = s.reports ∧
      t.ring = s.ring ++ [{ origin := d.origin, seq := d.seq, payload := d.payload }] ∧
      t.seen = seenInsert (d.origin, d.seq) s.seen ∧ t.paths = learnPath d.origin i s.nowMs s.paths ∧
      t.workAvailable = true ∧
      (0 < s.free → t.free + 1 = s.free ∧ t.rx = { s.rx with holds := true, request := false }) ∧
      (s.free = 0 → t.free = 0 ∧ t.rx = { s.rx with holds := false, request := true }) ∧
      { t with ring := s.ring, seen := s.seen, paths := s.paths, free := s.free, rx := s.rx,
               workAvailable := s.workAvailable } = s := by
  intro t
  obtain ⟨hfree, hnone⟩ := keepBuffer_pool (s.delivered i d)
  obtain ⟨x, n, ht⟩ := keepBuffer_eq (s.delivered i d)
  have ht : t = { s.delivered i d with rx := x, free := n } := ht
  refine ⟨?_, ?_, ?_, ?_, ?_, ?_, ?_, hfree, hnone, ?_⟩ <;> rw [ht] <;> rfl

/-- A frame relayed: the queue, the seen list, the return paths, the pool and the receiver move, and nothing else. -/
theorem relayedOn_keepBuffer (s : State) (i : Nat) (d : DataBody) :
    let t := (s.relayedOn i d).keepBuffer
    t.fwd = s.fwd ++ [s.relayEntry i d] ∧ t.ring = s.ring ∧ t.slots = s.slots ∧ t.serial = s.serial + 1 ∧
      t.seen = seenInsert (d.origin, d.seq) s.seen ∧ t.paths = learnPath d.origin i s.nowMs s.paths ∧
      t.workAvailable = true ∧
      (0 < s.free → t.free + 1 = s.free ∧ t.rx = { s.rx with holds := true, request := false }) ∧
      (s.free = 0 → t.free = 0 ∧ t.rx = { s.rx with holds := false, request := true }) ∧
      { t with fwd := s.fwd, seen := s.seen, paths := s.paths, free := s.free, rx := s.rx, serial := s.serial,
               workAvailable := s.workAvailable } = s := by
  intro t
  obtain ⟨hfree, hnone⟩ := keepBuffer_pool (s.relayedOn i d)
  obtain ⟨x, n, ht⟩ := keepBuffer_eq (s.relayedOn i d)
  have ht : t = { s.relayedOn i d with rx := x, free := n } := ht
  refine ⟨?_, ?_, ?_, ?_, ?_, ?_, ?_, hfree, hnone, ?_⟩ <;> rw [ht] <;> rfl

/-- Settles O34. -/
theorem relayUnitTakesData : Obligations.RelayUnitTakesData := by
  unfold Obligations.RelayUnitTakesData
  refine ⟨fun s i r d body hr hseen _ => ?_, ⟨fun p l hlen => ⟨fun h => seenInsert_repeat hlen h, seenInsert_joins,
    seenInsert_pushes⟩, fun origin via now l => ⟨learnPath_known via now, learnPath_joins via now,
    learnPath_replaces via now⟩⟩, fun s f i body hk hs hc => ?_, fun body => ⟨parseData_eq_none_iff body, fun d hp =>
    parseData_fields hp⟩⟩
  · intro here fresh
    refine ⟨takeData_not_up hr, takeData_malformed, fun hu hp => ⟨takeData_loop hr hu hp, fun ho hs => ?_,
      fun hf hh hring => ?_, fun hf hh hring => ?_, fun hf hh hhop => ?_, fun hf hh hhop hq => ?_,
      fun hf hh hhop hq => ?_⟩⟩
    · rw [takeData_duplicate hr hu hp ho hs, seenInsert_repeat hseen hs]
    · rw [takeData_here hr hu hp hf ((forHere_iff s d).mpr hh), deliver_full i hring]
    · exact ⟨_, (takeData_here hr hu hp hf ((forHere_iff s d).mpr hh)).trans (deliver_taken i hring),
        delivered_keepBuffer s i d⟩
    · exact ⟨_, (takeData_elsewhere hr hu hp hf (mt (forHere_iff s d).mp hh)).trans (relay_used_up i hr hhop),
        rfl, rfl, rfl, rfl, rfl, rfl, rfl⟩
    · rw [takeData_elsewhere hr hu hp hf (mt (forHere_iff s d).mp hh), relay_full i hhop hq]
    · obtain ⟨hfwd, hring, hslots, hserial, hrest⟩ := relayedOn_keepBuffer s i d
      exact ⟨_, s.relayEntry i d,
        (takeData_elsewhere hr hu hp hf (mt (forHere_iff s d).mp hh)).trans (relay_taken i hhop hq), hfwd, hring, hslots,
        rfl, rfl, rfl, rfl, rfl, rfl, rfl, rfl, rfl, rfl, rfl, hserial, hrest⟩
  · intro u
    have hgood := dataBody_good (f := f) s hs hc i
    refine ⟨(handBody_data s none hk).trans (dataBody_unknown s hs), fun hno => ?_, fun full hfull h1 h2 => ?_⟩
    · rw [handBody_data s _ hk, hgood]
      show (match u.2 with | some full => u.1.askAck f.header full | none => u.1) = u.1
      cases hu : u.2 with
      | none => rfl
      | some full => exact askAck_shared full (hno.resolve_left (hu ▸ Option.some_ne_none full))
    · rw [handBody_data s _ hk, hgood]
      show (match u.2 with | some full => u.1.askAck f.header full | none => u.1) = _
      rw [hfull]
      exact askAck_owed full h1 h2

end Sys2Proof.Machine

/-! The Air Sender's choice (R14 to R18, R127, R129, R130). -/

namespace Sys2Proof.Machine

/-! ## Control frames, the oldest first (R16) -/

/-- The pending page of a slot whose peer is listening, as a control frame (R16). -/
def slotPage (k : Nat) (o : Option Record) : Option ControlFrame :=
  o.bind fun r => r.exch.bind fun y => y.page.bind fun p =>
    if r.listening = true then some { ready := p.ready, rank := k, chosen := .page k p.id } else none

theorem slotPage_eq_some_iff {k : Nat} {o : Option Record} {x : ControlFrame} : slotPage k o = some x ↔
    ∃ r y p, o = some r ∧ r.exch = some y ∧ y.page = some p ∧ r.listening = true ∧
      x = { ready := p.ready, rank := k, chosen := .page k p.id } := by
  simp only [slotPage, Option.bind_eq_some_iff, Option.ite_none_right_eq_some, Option.some.injEq]
  constructor
  · rintro ⟨r, hr, y, hy, p, hp, hl, hx⟩
    exact ⟨r, y, p, hr, hy, hp, hl, hx.symm⟩
  · rintro ⟨r, y, p, hr, hy, hp, hl, hx⟩
    exact ⟨r, hr, y, hy, p, hp, hl, hx.symm⟩

theorem pagesFrom_cons (o : Option Record) (l : List (Option Record)) (k : Nat) :
    pagesFrom (o :: l) k = (slotPage k o).toList ++ pagesFrom l (k + 1) := by
  cases o with
  | none => rfl
  | some r =>
    rw [pagesFrom, slotPage, Option.bind_some]
    cases r.exch with
    | none => rfl
    | some y =>
      rw [Option.bind_some]
      dsimp only
      cases y.page with
      | none => rfl
      | some p =>
        rw [Option.bind_some]
        dsimp only
        split <;> rfl

/-- A pending page of a slot whose peer is listening. -/
theorem mem_pagesFrom {l : List (Option Record)} {k : Nat} {x : ControlFrame} :
    x ∈ pagesFrom l k ↔ ∃ j o, l[j]? = some o ∧ slotPage (k + j) o = some x := by
  induction l generalizing k with
  | nil => exact iff_of_false List.not_mem_nil fun ⟨j, o, ho, _⟩ => nomatch ho
  | cons o l ih =>
    rw [pagesFrom_cons, List.mem_append, Option.mem_toList, ih]
    constructor
    · rintro (ho | ⟨j, o', ho', hx⟩)
      · exact ⟨0, o, rfl, ho⟩
      · exact ⟨j + 1, o', ho', by rwa [show k + (j + 1) = k + 1 + j by omega]⟩
    · rintro ⟨j, o', ho', hx⟩
      cases j with
      | zero =>
        cases ho'
        exact .inl hx
      | succ j => exact .inr ⟨j, o', ho', by rwa [show k + 1 + j = k + (j + 1) by omega]⟩

theorem sendable_isSome_iff (s : State) (a : Addr) : (s.sendable a).isSome = true ↔
    ∃ j r, s.findPeer a = some j ∧ s.rec? j = some r ∧ r.link = .up ∧ r.listening = true := by
  rw [Option.isSome_iff_exists, exists_comm]
  exact exists_congr fun r => sendable_eq_some_iff s a r

theorem mem_probeFrame {s : State} {x : ControlFrame} : x ∈ s.probeFrame ↔
    ∃ k id ready c, s.check.state = .pending k id ready ∧ s.check.record = some c ∧
      (s.sendable c.peer).isSome = true ∧ x = { ready := ready, rank := 24, chosen := .probe id } := by
  unfold State.probeFrame
  split
  · next k id ready c hst hrec =>
    constructor
    · intro hx
      split at hx
      · next hs => exact ⟨k, id, ready, c, hst, hrec, hs, List.mem_singleton.mp hx⟩
      · cases hx
    · rintro ⟨k', id', ready', c', hst', hrec', hs, hx⟩
      obtain ⟨rfl, rfl, rfl⟩ := CheckState.pending.inj (hst.symm.trans hst')
      obtain rfl : c = c' := Option.some.inj (hrec.symm.trans hrec')
      rw [if_pos hs]
      exact List.mem_singleton.mpr hx
  · next hno => exact iff_of_false List.not_mem_nil fun ⟨k, id, ready, c, hst, hrec, _⟩ => hno k id ready c hst hrec

theorem mem_reflectFrame {s : State} {x : ControlFrame} : x ∈ s.reflectFrame ↔
    ∃ q, s.tx.reflect = some q ∧ (s.sendable q.prober).isSome = true ∧
      x = { ready := q.ready, rank := 25, chosen := .reflect q.id } := by
  unfold State.reflectFrame
  split
  · next q hq =>
    constructor
    · intro hx
      split at hx
      · next hs => exact ⟨q, hq, hs, List.mem_singleton.mp hx⟩
      · cases hx
    · rintro ⟨q', hq', hs, hx⟩
      obtain rfl : q = q' := Option.some.inj (hq.symm.trans hq')
      rw [if_pos hs]
      exact List.mem_singleton.mpr hx
  · next hno => exact iff_of_false List.not_mem_nil fun ⟨q, hq, _⟩ => nomatch hno.symm.trans hq

/-- A control frame that may be sent now: a page, the probe or the REFLECT, its addressee listening (R14, R16). -/
theorem mem_controlFrames (s : State) (x : ControlFrame) : x ∈ s.controlFrames ↔
    (∃ i r y p, s.rec? i = some r ∧ r.exch = some y ∧ y.page = some p ∧ r.listening = true ∧
      x = { ready := p.ready, rank := i, chosen := .page i p.id }) ∨
    (∃ k id ready c j r, s.check.state = .pending k id ready ∧ s.check.record = some c ∧ s.findPeer c.peer = some j ∧
      s.rec? j = some r ∧ r.link = .up ∧ r.listening = true ∧
      x = { ready := ready, rank := 24, chosen := .probe id }) ∨
    (∃ q j r, s.tx.reflect = some q ∧ s.findPeer q.prober = some j ∧ s.rec? j = some r ∧ r.link = .up ∧
      r.listening = true ∧ x = { ready := q.ready, rank := 25, chosen := .reflect q.id }) := by
  rw [State.controlFrames, List.mem_append, List.mem_append, or_assoc, mem_pagesFrom, mem_probeFrame, mem_reflectFrame]
  simp only [sendable_isSome_iff, slotPage_eq_some_iff, Nat.zero_add]
  refine or_congr ⟨?_, ?_⟩ (or_congr ⟨?_, ?_⟩ ⟨?_, ?_⟩)
  · rintro ⟨i, o, ho, r, y, p, rfl, hy, hp, hl, hx⟩
    exact ⟨i, r, y, p, (rec?_eq_some_iff s i r).mpr ho, hy, hp, hl, hx⟩
  · rintro ⟨i, r, y, p, hr, hy, hp, hl, hx⟩
    exact ⟨i, some r, (rec?_eq_some_iff s i r).mp hr, r, y, p, rfl, hy, hp, hl, hx⟩
  · rintro ⟨k, id, ready, c, hst, hrec, ⟨j, r, hj, hr, hu, hl⟩, hx⟩
    exact ⟨k, id, ready, c, j, r, hst, hrec, hj, hr, hu, hl, hx⟩
  · rintro ⟨k, id, ready, c, j, r, hst, hrec, hj, hr, hu, hl, hx⟩
    exact ⟨k, id, ready, c, hst, hrec, ⟨j, r, hj, hr, hu, hl⟩, hx⟩
  · rintro ⟨q, hq, ⟨j, r, hj, hr, hu, hl⟩, hx⟩
    exact ⟨q, j, r, hq, hj, hr, hu, hl, hx⟩
  · rintro ⟨q, j, r, hq, hj, hr, hu, hl, hx⟩
    exact ⟨q, hq, ⟨j, r, hj, hr, hu, hl⟩, hx⟩

theorem before_iff (a b : ControlFrame) :
    a.before b = true ↔ a.ready < b.ready ∨ a.ready = b.ready ∧ a.rank < b.rank := by
  simp [ControlFrame.before]

/-- The oldest control frame: no other is before it. -/
theorem oldestControl_spec {l : List ControlFrame} (h : l ≠ []) :
    ∃ f ∈ l, oldestControl l = some f ∧ ∀ y ∈ l, ¬y.before f = true := by
  induction l with
  | nil => exact absurd rfl h
  | cons p l ih =>
    by_cases hl : l = []
    · subst hl
      refine ⟨p, List.mem_cons_self, rfl, fun y hy => ?_⟩
      rw [List.mem_singleton.mp hy, before_iff]
      omega
    · obtain ⟨g, hg, hold, hmin⟩ := ih hl
      rw [oldestControl, hold]
      by_cases hb : g.before p = true
      · refine ⟨g, List.mem_cons_of_mem p hg, if_pos hb, fun y hy => ?_⟩
        rcases List.mem_cons.mp hy with rfl | hy
        · rw [before_iff] at hb ⊢
          omega
        · exact hmin y hy
      · refine ⟨p, List.mem_cons_self, if_neg hb, fun y hy => ?_⟩
        rcases List.mem_cons.mp hy with rfl | hy
        · rw [before_iff]
          omega
        · have hy' := hmin y hy
          rw [before_iff] at hb hy' ⊢
          omega

theorem oldestControl_eq {l : List ControlFrame} {x : ControlFrame} (hx : x ∈ l)
    (h : ∀ y ∈ l, y = x ∨ x.ready < y.ready ∨ x.ready = y.ready ∧ x.rank < y.rank) : oldestControl l = some x := by
  obtain ⟨f, hf, hold, hmin⟩ := oldestControl_spec (List.ne_nil_of_mem hx)
  rcases h f hf with rfl | hb
  · exact hold
  · exact absurd ((before_iff x f).mpr hb) (hmin x hx)


/-! ## What the choice reads of the table (R40) -/

/-- The no-path counters of the records do not bear on the choice: two states that agree but for them, the queue, the
pool and the reports agree in what may be sent. -/
structure State.AgreeFor (a b : State) : Prop where
  table : b.table = a.table
  host  : b.host = a.host
  still : b.still = a.still

theorem dropEntry_agrees (s : State) (id : Nat) (c : DropCause) : s.AgreeFor (s.dropEntry id c) :=
  ⟨dropEntry_table s id c, dropEntry_host s id c, dropEntry_still s id c⟩

theorem pagesFrom_uncounted (l : List (Option Record)) (k : Nat) :
    pagesFrom (l.map (Option.map Record.uncounted)) k = pagesFrom l k := by
  induction l generalizing k with
  | nil => rfl
  | cons o l ih =>
    have hpage : slotPage k (o.map Record.uncounted) = slotPage k o := by cases o <;> rfl
    rw [List.map_cons, pagesFrom_cons, pagesFrom_cons, ih, hpage]

theorem findPeer_table (s : State) (a : Addr) : s.findPeer a =
    s.table.findIdx? fun o => match o with | some r => decide (r.peer = a) | none => false := by
  rw [State.findPeer, State.table, List.findIdx?_map]
  refine congrArg (fun g => s.slots.findIdx? g) (funext fun o => ?_)
  cases o <;> rfl

theorem rec?_table (s : State) (i : Nat) : (s.rec? i).map Record.uncounted = (s.table[i]?).join := by
  rw [State.rec?, State.table, List.getElem?_map]
  cases s.slots[i]? <;> rfl

theorem isUp_uncounted (o : Option Record) : isUp (o.map Record.uncounted) = isUp o := by cases o <;> rfl

/-- What the choice reads of a record is the same without its no-path counter. -/
theorem uncounted_reads {q r : Record} (h : q.uncounted = r.uncounted) :
    q.link = r.link ∧ q.listening = r.listening ∧ q.peer = r.peer ∧ ∀ e, fits q e = fits r e := by
  refine ⟨?_, ?_, ?_, fun e => ?_⟩
  · exact show q.uncounted.link = r.uncounted.link by rw [h]
  · exact show q.uncounted.listening = r.uncounted.listening by rw [h]
  · exact show q.uncounted.peer = r.uncounted.peer by rw [h]
  · exact show fits q.uncounted e = fits r.uncounted e by rw [h]

section
variable {a b : State} (h : a.AgreeFor b)
include h

theorem State.AgreeFor.findPeer (x : Addr) : b.findPeer x = a.findPeer x := by
  rw [findPeer_table, findPeer_table, h.table]

theorem State.AgreeFor.rec? (i : Nat) : (b.rec? i).map Record.uncounted = (a.rec? i).map Record.uncounted := by
  rw [rec?_table, rec?_table, h.table]

theorem State.AgreeFor.tx : b.tx = a.tx := congrArg (fun y => y.2.2.2.2) h.still

theorem State.AgreeFor.check : b.check = a.check := congrArg (fun y => y.2.1) h.still

theorem State.AgreeFor.sendable (x : Addr) : (b.sendable x).isSome = (a.sendable x).isSome := by
  have hrec : (b.recOf x).map Record.uncounted = (a.recOf x).map Record.uncounted := by
    rw [State.recOf, State.recOf, h.findPeer]
    cases a.findPeer x with
    | none => rfl
    | some j => exact h.rec? j
  unfold State.sendable
  cases ha : a.recOf x with
  | none =>
    rw [ha] at hrec
    rw [Option.map_eq_none_iff.mp hrec]
  | some r =>
    rw [ha] at hrec
    obtain ⟨q, hq, hqr⟩ := Option.map_eq_some_iff.mp hrec
    obtain ⟨hlink, hlis, -⟩ := uncounted_reads hqr
    rw [hq]
    dsimp only
    rw [hlink, hlis]
    split <;> rfl

theorem State.AgreeFor.controlFrames : b.controlFrames = a.controlFrames := by
  have hpages : pagesFrom b.slots 0 = pagesFrom a.slots 0 := by
    rw [← pagesFrom_uncounted b.slots, ← pagesFrom_uncounted a.slots]
    exact congrArg (pagesFrom · 0) h.table
  simp only [State.controlFrames, State.probeFrame, State.reflectFrame, hpages, h.check, h.tx, h.sendable]

theorem State.AgreeFor.resolve (x : Addr) : b.resolve x = a.resolve x := by
  have hpath : b.pathTo x = a.pathTo x := by
    have hpaths : b.paths = a.paths := congrArg (fun y => y.2.2.2.1.2.2) h.still
    rw [State.pathTo, State.pathTo, hpaths]
  have hhop : b.nextHop = a.nextHop := congrArg (fun y => y.2.2.1.1) h.still
  have hup (i : Nat) : isUp (b.rec? i) = isUp (a.rec? i) := by
    rw [← isUp_uncounted, h.rec?, isUp_uncounted]
  simp only [State.resolve, h.findPeer, hup, hpath, hhop, cfg_congr h.host]

theorem State.AgreeFor.examine (e : Entry) : b.examine e = a.examine e := by
  have hrec : ((b.resolve e.dest).bind b.rec?).map Record.uncounted =
      ((a.resolve e.dest).bind a.rec?).map Record.uncounted := by
    rw [h.resolve]
    cases a.resolve e.dest with
    | none => rfl
    | some j => exact h.rec? j
  unfold State.examine
  cases ha : (a.resolve e.dest).bind a.rec? with
  | none =>
    rw [ha] at hrec
    rw [Option.map_eq_none_iff.mp hrec]
  | some r =>
    rw [ha] at hrec
    obtain ⟨q, hq, hqr⟩ := Option.map_eq_some_iff.mp hrec
    obtain ⟨-, hlis, hpeer, hfits⟩ := uncounted_reads hqr
    rw [hq]
    dsimp only
    rw [hfits, hlis, hpeer]

theorem State.AgreeFor.pastWait (e : Entry) : b.pastWait e = a.pastWait e := by
  rw [State.pastWait, State.pastWait, cfg_congr h.host, nowMs_congr h.host]

end

/-! ## The forward queue examined (R17, R129) -/

/-- A frame passed over: it waits, and not past its limit. -/
def State.passes (s : State) (q : Entry) : Prop := s.examine q = .waiting ∧ s.pastWait q = false

section
variable {s : State}

/-- Frames passed over leave the rest of the queue to be examined in the same state. -/
theorem scanQueue_passes {l : List Entry} (h : ∀ q ∈ l, s.passes q) (u : List Entry) :
    scanQueue (l ++ u) s = scanQueue u s := by
  induction l with
  | nil => rfl
  | cons q l ih =>
    obtain ⟨hq, hl⟩ := List.forall_mem_cons.mp h
    obtain ⟨hwait, hpast⟩ := hq
    rw [List.cons_append, scanQueue, hwait, hpast]
    exact ih hl

theorem scanQueue_all_pass {l : List Entry} (h : ∀ q ∈ l, s.passes q) : scanQueue l s = (s, none) := by
  have hscan := scanQueue_passes h []
  rwa [List.append_nil] at hscan

theorem scanQueue_send {e : Entry} {peer : Addr} (u : List Entry) (h : s.examine e = .send peer) :
    scanQueue (e :: u) s = (s, some (.data e.id peer)) := by
  rw [scanQueue, h]

theorem scanQueue_tooLong {e : Entry} (u : List Entry) (h : s.examine e = .tooLong) :
    scanQueue (e :: u) s = scanQueue u (s.dropEntry e.id .tooLong) := by
  rw [scanQueue, h]

theorem scanQueue_expired {e : Entry} (u : List Entry) (h : s.examine e = .waiting) (hp : s.pastWait e = true) :
    scanQueue (e :: u) s = scanQueue u (s.dropEntry e.id .noPath) := by
  rw [scanQueue, h, hp]
  rfl

/-- A drop takes the first entry of its identity out of the queue, and no other. -/
theorem dropEntry_fwd (s : State) (id : Nat) (c : DropCause) :
    (s.dropEntry id c).fwd = s.fwd.eraseP fun e => decide (e.id = id) := by
  cases hq : s.entry? id with
  | none =>
    rw [State.dropEntry, hq, List.eraseP_of_forall_not fun e he hc => List.find?_eq_none.mp hq e he hc]
  | some q =>
    obtain ⟨x, n, hw⟩ := withdrawn_eq s id
    rw [dropEntry_eq hq, recordDrop_fwd, hw]

theorem dropEntry_middle {l u : List Entry} {e : Entry} (hf : s.fwd = l ++ e :: u) (hn : (s.fwd.map Entry.id).Nodup)
    (c : DropCause) : (s.dropEntry e.id c).fwd = l ++ u := by
  have hfirst : ∀ q ∈ l, ¬decide (q.id = e.id) = true := by
    rw [hf, List.map_append, List.map_cons, List.nodup_append] at hn
    exact fun q hq hc => hn.2.2 q.id (List.mem_map_of_mem hq) e.id List.mem_cons_self (of_decide_eq_true hc)
  rw [dropEntry_fwd, hf, List.eraseP_append_right _ hfirst]
  exact congrArg (l ++ ·) (List.eraseP_cons_of_pos (p := fun x : Entry => decide (x.id = e.id)) (decide_eq_true rfl))

end

/-! ## The choice (R14) -/

section
variable {s : State}

theorem choose_beacon (h : s.tx.beaconDue = true) : s.choose = s.enterDefer .beacon := if_pos h

theorem choose_control {x : ControlFrame} (h : s.tx.beaconDue = false) (hx : oldestControl s.controlFrames = some x) :
    s.choose = s.enterDefer x.chosen := by
  rw [State.choose, hx]
  exact if_neg (Bool.eq_false_iff.mp h)

section
variable (h : s.tx.beaconDue = false) (hc : s.controlFrames = [])
include h hc

theorem choose_none {u : State} (hs : scanQueue s.fwd s = (u, none)) : s.choose = u := by
  rw [State.choose, hc, hs]
  exact if_neg (Bool.eq_false_iff.mp h)

theorem choose_data {u : State} {c : Chosen} (hs : scanQueue s.fwd s = (u, some c)) : s.choose = u.enterDefer c := by
  rw [State.choose, hc, hs]
  exact if_neg (Bool.eq_false_iff.mp h)

/-- A drop in the course of the examination: the choice goes on as in the state without the frame. -/
theorem choose_drops {l u : List Entry} {e : Entry} (hf : s.fwd = l ++ e :: u) (hl : ∀ q ∈ l, s.passes q)
    (hn : (s.fwd.map Entry.id).Nodup) {c : DropCause} (hd : scanQueue (e :: u) s = scanQueue u (s.dropEntry e.id c)) :
    s.choose = (s.dropEntry e.id c).choose := by
  have hagree := dropEntry_agrees s e.id c
  have hscan : scanQueue (s.dropEntry e.id c).fwd (s.dropEntry e.id c) = scanQueue s.fwd s := by
    have hpass : ∀ q ∈ l, (s.dropEntry e.id c).passes q := fun q hq =>
      ⟨(hagree.examine q).trans (hl q hq).1, (hagree.pastWait q).trans (hl q hq).2⟩
    rw [dropEntry_middle hf hn, scanQueue_passes hpass, hf, scanQueue_passes hl, hd]
  have hbeacon : (s.dropEntry e.id c).tx.beaconDue = false := (congrArg Sender.beaconDue hagree.tx).trans h
  have hcontrol : (s.dropEntry e.id c).controlFrames = [] := hagree.controlFrames.trans hc
  rcases hs : scanQueue s.fwd s with ⟨v, chosen⟩
  rw [hs] at hscan
  cases chosen with
  | none => rw [choose_none h hc hs, choose_none hbeacon hcontrol hscan]
  | some x => rw [choose_data h hc hs, choose_data hbeacon hcontrol hscan]

end
end

/-! ## Resolution and examination (R17, R127) -/

section
variable {s : State} {e : Entry}

theorem examine_unresolved (h : s.resolve e.dest = none) : s.examine e = .waiting := by
  rw [State.examine, h]
  rfl

theorem examine_resolved {i : Nat} {r : Record} (h : s.resolve e.dest = some i) (hr : s.rec? i = some r) :
    s.examine e = if fits r e = true then if r.listening then .send r.peer else .waiting else .tooLong := by
  rw [State.examine, h, Option.bind_some, hr]
  dsimp only
  cases fits r e <;> rfl

theorem resolve_direct {dest : Addr} {i : Nat} {r : Record} (h : s.findPeer dest = some i) (hr : s.rec? i = some r)
    (hu : r.link = .up) : s.resolve dest = some i := by
  have hup : isUp (s.rec? i) = true := (isUp_iff _).mpr ⟨r, hr, hu⟩
  rw [State.resolve, h, Option.bind_some, if_pos hup]

theorem resolve_indirect {dest : Addr} (h : ∀ i, s.findPeer dest = some i → ∀ r, s.rec? i = some r → r.link ≠ .up) :
    s.resolve dest = match s.pathTo dest with
      | some i => some i
      | none => if s.cfg.gateway then none else s.nextHop.map NextHop.slot := by
  have hno : ((s.findPeer dest).bind fun i => if isUp (s.rec? i) then some i else none) = none := by
    cases hp : s.findPeer dest with
    | none => rfl
    | some i =>
      refine if_neg fun hc => ?_
      obtain ⟨r, hr, hu⟩ := (isUp_iff _).mp hc
      exact h i hp r hr hu
  rw [State.resolve, hno] <;> rfl

end

theorem chooses_iff (s : State) : s.chooses = true ↔
    s.tx.state = .idle ∧ s.station = .onAir ∧ s.tx.ackAir = none ∧ s.workAvailable = true := by
  simp [State.chooses, State.mayChoose, and_assoc]

/-- Settles O35. -/
theorem senderChoosesInOrder : Obligations.SenderChoosesInOrder := by
  unfold Obligations.SenderChoosesInOrder
  refine ⟨fun s => ⟨chooses_iff s, fun c => ⟨_, fun hcw => Nat.mod_lt _ hcw, rfl⟩, choose_beacon, mem_controlFrames s,
    fun x hb hx hmin => choose_control hb (oldestControl_eq hx hmin), fun hb hc => ⟨fun hall =>
      choose_none hb hc (scanQueue_all_pass hall), fun l e u hf hl => ⟨fun peer hs => ?_, fun hn hs => ?_,
      fun hn hs hp => ?_⟩⟩, fun e => ⟨pastWait_iff s e, examine_unresolved, fun i r m hi hr hm => ?_⟩, fun dest => ?_⟩,
    fun r => ?_⟩
  · refine choose_data hb hc ?_
    rw [hf, scanQueue_passes hl, scanQueue_send u hs]
  · exact choose_drops hb hc hf hl hn (scanQueue_tooLong u hs)
  · exact choose_drops hb hc hf hl hn (scanQueue_expired u hs hp)
  · have hexamine := examine_resolved (e := e) hi hr
    have hfits : fits r e = true ↔ e.payload.length ≤ m.maxPayload := by
      rw [fits_iff]
      refine ⟨fun ⟨m', hm', hfit⟩ => ?_, fun hfit => ⟨m, hm, hfit⟩⟩
      obtain rfl : m = m' := Option.some.inj (hm.symm.trans hm')
      exact hfit
    refine ⟨fun hlong => ?_, fun hfit hd hw => ?_, fun hfit hlis => ?_⟩
    · rw [hexamine, if_neg fun hc => absurd (hfits.mp hc) (not_le.mpr hlong)]
    · have hdeaf : ¬r.listening = true := fun hc => ((listening_iff r).mp hc).elim (fun hm => hm hd) fun hs => by
        rw [hw] at hs
        cases hs
      rw [hexamine, if_pos (hfits.mpr hfit), if_neg hdeaf]
    · rw [hexamine, if_pos (hfits.mpr hfit), if_pos ((listening_iff r).mpr hlis)]
  · intro direct
    refine ⟨fun i ⟨hi, r, hr, hu⟩ => resolve_direct hi hr hu, fun hno => ?_⟩
    have hres := resolve_indirect (s := s) (dest := dest) fun i hi r hr hu => hno i ⟨hi, r, hr, hu⟩
    refine ⟨fun p hp => ?_, fun hpaths => ?_⟩
    · have hpath : s.pathTo dest = some p.via := by
        rw [State.pathTo, hp]
        rfl
      rw [hres, hpath]
    · have hpath : s.pathTo dest = none := by
        rw [State.pathTo, List.find?_eq_none.mpr fun p hp hc => hpaths p hp (of_decide_eq_true hc)]
        rfl
      rw [hpath] at hres
      exact ⟨fun hg => hres.trans (if_neg (Bool.eq_false_iff.mp hg)), fun hg => hres.trans (if_pos hg)⟩
  · rw [listening_iff, Option.isSome_iff_exists]

end Sys2Proof.Machine
